-- ==== Sys2Proof/Word.lean ====
section
/-! DEFINITION. The byte, the one access width of the block (20_memory.md R43). -/

namespace Sys2Proof

/-- A byte is 8 bits (00_scope.md R6). -/
abbrev Byte := BitVec 8

end Sys2Proof
end

