-- ==== Sys2Proof/Machine/Mem.lean ====
section
/-! DEFINITION. A byte space (20_memory.md R40) as a list of cells in one canonical form: addresses
strictly rising, and no cell that holds what an unlisted address reads as. -/

namespace Sys2Proof

/-- A memory: the listed bytes of one address space. -/
abbrev Mem := List Host.Cell

namespace Mem

/-- What an address that is not listed reads as. The spec gives IN and OUT no contents after reset
(10_state.md R30); DESIGN CHOICE 0, unsafe (notes/assumptions/6.md). -/
def blank : Byte := 0#8

/-- `MemRead(space, a, 1)` (00_scope.md R7); total, no side effect (20_memory.md R55). -/
def read : Mem → Nat → Byte
  | [], _ => blank
  | (k, v) :: m, a => if a = k then v else read m a

/-- Puts a listed byte in its place; used by `write` alone. -/
def insertCell : Mem → Nat → Byte → Mem
  | [], a, v => [(a, v)]
  | (k, x) :: m, a, v =>
    if a < k then (a, v) :: (k, x) :: m
    else if a = k then (a, v) :: m
    else (k, x) :: insertCell m a v

/-- Takes an address off the list; used by `write` alone. -/
def erase : Mem → Nat → Mem
  | [], _ => []
  | (k, x) :: m, a => if a = k then m else (k, x) :: erase m a

/-- `MemWrite(space, a, 1, v)` (00_scope.md R7), keeping the canonical form. -/
def write (m : Mem) (a : Nat) (v : Byte) : Mem :=
  if v = blank then erase m a else insertCell m a v

/-- Every cell of `m` lies at `lo` or above, the addresses rise, and no cell is blank. -/
def sortedFrom : Nat → Mem → Bool
  | _, [] => true
  | lo, (k, v) :: m => decide (lo ≤ k) && decide (v ≠ blank) && sortedFrom (k + 1) m

/-- The canonical form. -/
def wf (m : Mem) : Bool := sortedFrom 0 m

/-- The bytes `bs` at the addresses from `a` on, written over `m`. -/
def load : Mem → Nat → List Byte → Mem
  | m, _, [] => m
  | m, a, b :: bs => load (m.write a b) (a + 1) bs

end Mem

end Sys2Proof
end

