-- ==== Sys2Proof/Config.lean ====
section
/-! DEFINITION. What an implementation fixes (00_scope.md R5) and the free values of what the spec
leaves unspecified (10_state.md R19, R20; 93_implementation_defined.md U21). -/

namespace Sys2Proof

/-- The OPEN parameters of 00_scope.md R5. They are no state of the block (10_state.md R28): State
carries one value of them, which no step changes, so that a statement about every state is a
statement about every platform (DESIGN CHOICE, notes/assumptions/1.md, safe). -/
structure Params where
  /-- `IN_CAP`: number of bytes in the input space. -/
  inCap : Nat
  /-- `OUT_CAP`: number of bytes in the output space. -/
  outCap : Nat
  /-- `BLOCK_CAP`: largest number of blocks decoded in one call. -/
  blockCap : Nat
deriving DecidableEq, Repr

namespace Params

/-- The constraints of 00_scope.md R5: each capacity is at least 1. -/
abbrev wf (p : Params) : Prop := 1 ≤ p.inCap ∧ 1 ≤ p.outCap ∧ 1 ≤ p.blockCap

/-- `W_IN`, the least width with `2 ^ W_IN > IN_CAP` (00_scope.md R5). -/
def wIn (p : Params) : Nat := p.inCap.log2 + 1

/-- `W_OUT`, the least width with `2 ^ W_OUT > OUT_CAP` (00_scope.md R5). -/
def wOut (p : Params) : Nat := p.outCap.log2 + 1

/-- `W_BLK`, the least width with `2 ^ W_BLK > BLOCK_CAP` (00_scope.md R5). -/
def wBlk (p : Params) : Nat := p.blockCap.log2 + 1

/-- The parameters a machine has at `State.reset`: the spec leaves them OPEN (DESIGN CHOICE,
notes/assumptions/1.md, unsafe only for a claim about runs from `State.reset`). -/
def atReset : Params := ⟨4294967295, 4294967295, 4294967295⟩

end Params

/-- `NODE_CAP_CL`: node records of the code-length tree arena (00_scope.md R5). -/
def nodeCapCl : Nat := 134

/-- `NODE_CAP_LL`: node records of the literal/length tree arena (00_scope.md R5). -/
def nodeCapLl : Nat := 4321

/-- `NODE_CAP_D`: node records of the distance tree arena (00_scope.md R5). -/
def nodeCapD : Nat := 481

/-- The free values: the `k`-th value drawn where the spec says that a host read returns an
unspecified value (10_state.md R19, R20; 93_implementation_defined.md U21). It has no body, so no
proof can see what it is (DESIGN CHOICE, notes/assumptions/5.md, safe). -/
opaque Config.freeValue : Nat → Nat

end Sys2Proof
end

