-- ==== Sys2Proof/Syntax.lean ====
section
/-! DEFINITION. The elements of the compressed stream and the host's commands, one constructor per
mnemonic of spec/opcode_table.json (30_encoding.md R76, R78), and the names of the error kinds. -/

namespace Sys2Proof

/-- The two start modes, `CTRL.MODE` (10_state.md R16). -/
inductive Mode where
  | raw   -- 0: the input is a bare DEFLATE stream
  | zlib  -- 1: the input is a zlib-wrapped stream
deriving DecidableEq, Repr

/-- The error kinds of 60_exceptions.md R161, codes 1 to 10. -/
inductive ErrKind where
  | illegalBlockFormat
  | uncompressedLengthMismatch
  | treeError
  | illegalSmallTree
  | inputUnderrun
  | distanceTooFar
  | missingFinalBlock
  | outputOverflow
  | repeatWithoutPrevious
  | codeLengthOverrun
deriving DecidableEq, Repr

/-- The instructions of the block. Operands are raw fields as they stand in the stream (30_encoding.md
R75); a field the spec says is never examined (the pad bits, the dictionary id, the checksum) is no
operand (DESIGN CHOICE, notes/assumptions/20.md, safe). -/
inductive Instr where
  /-- `BLOCK final=f STORED` (R111, R113). -/
  | blockStored (final : Bool)
  /-- `BLOCK final=f FIXED` (R111, R114). -/
  | blockFixed (final : Bool)
  /-- `BLOCK final=f DYNAMIC` (R111, R115). -/
  | blockDynamic (final : Bool)
  /-- `BLOCK final=f RESERVED` (R111, R126). -/
  | blockReserved (final : Bool)
  /-- `PAD` (R113). -/
  | pad
  /-- `LEN16 n` (R113). -/
  | len16 (n : BitVec 16)
  /-- `NLEN16 n` (R113). -/
  | nlen16 (n : BitVec 16)
  /-- `BYTE x` (R113). -/
  | byte (x : Byte)
  /-- `HLIT` (R115). -/
  | hlit (v : BitVec 5)
  /-- `HDIST` (R115). -/
  | hdist (v : BitVec 5)
  /-- `HCLEN` (R115). -/
  | hclen (v : BitVec 4)
  /-- `CLLEN v0 v1 ...`: the code-length lengths, in `CL_PERM` order (R116). -/
  | cllen (vs : List (BitVec 3))
  /-- `CL n`, n 0 to 15 (R119). -/
  | cl (n : BitVec 4)
  /-- `CL16`, extra field r (R120). -/
  | cl16 (r : BitVec 2)
  /-- `CL17`, extra field r (R121). -/
  | cl17 (r : BitVec 3)
  /-- `CL18`, extra field r (R122). -/
  | cl18 (r : BitVec 7)
  /-- `LIT x` (R131). -/
  | lit (x : Byte)
  /-- `EOB` (R132). -/
  | eob
  /-- `LENGTH 257`: 0 extra bits, base 3 (R133, R70). -/
  | length257
  /-- `LENGTH 258`: 0 extra bits, base 4 (R133, R70). -/
  | length258
  /-- `LENGTH 259`: 0 extra bits, base 5 (R133, R70). -/
  | length259
  /-- `LENGTH 260`: 0 extra bits, base 6 (R133, R70). -/
  | length260
  /-- `LENGTH 261`: 0 extra bits, base 7 (R133, R70). -/
  | length261
  /-- `LENGTH 262`: 0 extra bits, base 8 (R133, R70). -/
  | length262
  /-- `LENGTH 263`: 0 extra bits, base 9 (R133, R70). -/
  | length263
  /-- `LENGTH 264`: 0 extra bits, base 10 (R133, R70). -/
  | length264
  /-- `LENGTH 265`: 1 extra bits, base 11 (R133, R70). -/
  | length265 (x : BitVec 1)
  /-- `LENGTH 266`: 1 extra bits, base 13 (R133, R70). -/
  | length266 (x : BitVec 1)
  /-- `LENGTH 267`: 1 extra bits, base 15 (R133, R70). -/
  | length267 (x : BitVec 1)
  /-- `LENGTH 268`: 1 extra bits, base 17 (R133, R70). -/
  | length268 (x : BitVec 1)
  /-- `LENGTH 269`: 2 extra bits, base 19 (R133, R70). -/
  | length269 (x : BitVec 2)
  /-- `LENGTH 270`: 2 extra bits, base 23 (R133, R70). -/
  | length270 (x : BitVec 2)
  /-- `LENGTH 271`: 2 extra bits, base 27 (R133, R70). -/
  | length271 (x : BitVec 2)
  /-- `LENGTH 272`: 2 extra bits, base 31 (R133, R70). -/
  | length272 (x : BitVec 2)
  /-- `LENGTH 273`: 3 extra bits, base 35 (R133, R70). -/
  | length273 (x : BitVec 3)
  /-- `LENGTH 274`: 3 extra bits, base 43 (R133, R70). -/
  | length274 (x : BitVec 3)
  /-- `LENGTH 275`: 3 extra bits, base 51 (R133, R70). -/
  | length275 (x : BitVec 3)
  /-- `LENGTH 276`: 3 extra bits, base 59 (R133, R70). -/
  | length276 (x : BitVec 3)
  /-- `LENGTH 277`: 4 extra bits, base 67 (R133, R70). -/
  | length277 (x : BitVec 4)
  /-- `LENGTH 278`: 4 extra bits, base 83 (R133, R70). -/
  | length278 (x : BitVec 4)
  /-- `LENGTH 279`: 4 extra bits, base 99 (R133, R70). -/
  | length279 (x : BitVec 4)
  /-- `LENGTH 280`: 4 extra bits, base 115 (R133, R70). -/
  | length280 (x : BitVec 4)
  /-- `LENGTH 281`: 5 extra bits, base 131 (R133, R70). -/
  | length281 (x : BitVec 5)
  /-- `LENGTH 282`: 5 extra bits, base 163 (R133, R70). -/
  | length282 (x : BitVec 5)
  /-- `LENGTH 283`: 5 extra bits, base 195 (R133, R70). -/
  | length283 (x : BitVec 5)
  /-- `LENGTH 284`: 5 extra bits, base 227 (R133, R70). -/
  | length284 (x : BitVec 5)
  /-- `LENGTH 285`: 0 extra bits, base 258 (R133, R70). -/
  | length285
  /-- `DIST 0`: 0 extra bits, base 1 (R134, R71). -/
  | dist0
  /-- `DIST 1`: 0 extra bits, base 2 (R134, R71). -/
  | dist1
  /-- `DIST 2`: 0 extra bits, base 3 (R134, R71). -/
  | dist2
  /-- `DIST 3`: 0 extra bits, base 4 (R134, R71). -/
  | dist3
  /-- `DIST 4`: 1 extra bits, base 5 (R134, R71). -/
  | dist4 (y : BitVec 1)
  /-- `DIST 5`: 1 extra bits, base 7 (R134, R71). -/
  | dist5 (y : BitVec 1)
  /-- `DIST 6`: 2 extra bits, base 9 (R134, R71). -/
  | dist6 (y : BitVec 2)
  /-- `DIST 7`: 2 extra bits, base 13 (R134, R71). -/
  | dist7 (y : BitVec 2)
  /-- `DIST 8`: 3 extra bits, base 17 (R134, R71). -/
  | dist8 (y : BitVec 3)
  /-- `DIST 9`: 3 extra bits, base 25 (R134, R71). -/
  | dist9 (y : BitVec 3)
  /-- `DIST 10`: 4 extra bits, base 33 (R134, R71). -/
  | dist10 (y : BitVec 4)
  /-- `DIST 11`: 4 extra bits, base 49 (R134, R71). -/
  | dist11 (y : BitVec 4)
  /-- `DIST 12`: 5 extra bits, base 65 (R134, R71). -/
  | dist12 (y : BitVec 5)
  /-- `DIST 13`: 5 extra bits, base 97 (R134, R71). -/
  | dist13 (y : BitVec 5)
  /-- `DIST 14`: 6 extra bits, base 129 (R134, R71). -/
  | dist14 (y : BitVec 6)
  /-- `DIST 15`: 6 extra bits, base 193 (R134, R71). -/
  | dist15 (y : BitVec 6)
  /-- `DIST 16`: 7 extra bits, base 257 (R134, R71). -/
  | dist16 (y : BitVec 7)
  /-- `DIST 17`: 7 extra bits, base 385 (R134, R71). -/
  | dist17 (y : BitVec 7)
  /-- `DIST 18`: 8 extra bits, base 513 (R134, R71). -/
  | dist18 (y : BitVec 8)
  /-- `DIST 19`: 8 extra bits, base 769 (R134, R71). -/
  | dist19 (y : BitVec 8)
  /-- `DIST 20`: 9 extra bits, base 1025 (R134, R71). -/
  | dist20 (y : BitVec 9)
  /-- `DIST 21`: 9 extra bits, base 1537 (R134, R71). -/
  | dist21 (y : BitVec 9)
  /-- `DIST 22`: 10 extra bits, base 2049 (R134, R71). -/
  | dist22 (y : BitVec 10)
  /-- `DIST 23`: 10 extra bits, base 3073 (R134, R71). -/
  | dist23 (y : BitVec 10)
  /-- `DIST 24`: 11 extra bits, base 4097 (R134, R71). -/
  | dist24 (y : BitVec 11)
  /-- `DIST 25`: 11 extra bits, base 6145 (R134, R71). -/
  | dist25 (y : BitVec 11)
  /-- `DIST 26`: 12 extra bits, base 8193 (R134, R71). -/
  | dist26 (y : BitVec 12)
  /-- `DIST 27`: 12 extra bits, base 12289 (R134, R71). -/
  | dist27 (y : BitVec 12)
  /-- `DIST 28`: 13 extra bits, base 16385 (R134, R71). -/
  | dist28 (y : BitVec 13)
  /-- `DIST 29`: 13 extra bits, base 24577 (R134, R71). -/
  | dist29 (y : BitVec 13)
  /-- `LLSYM 286` (R136). -/
  | llsym286
  /-- `LLSYM 287` (R136). -/
  | llsym287
  /-- `DSYM 30` (R137). -/
  | dsym30
  /-- `DSYM 31` (R137). -/
  | dsym31
  /-- `ZHDR b0 b1` (R150). -/
  | zhdr (b0 b1 : Byte)
  /-- `DICTID` (R150). -/
  | dictid
  /-- `ADLER` (R150). -/
  | adler
  /-- `START` with the `MODE` written in the same access (R16, R147). -/
  | start (mode : Mode)
  /-- `RESET` (R185). -/
  | reset
deriving DecidableEq, Repr

end Sys2Proof
end

