-- ==== Sys2Proof/Machine/BitReader.lean ====
section
/-! DEFINITION. The bit_reader sub-block (40_bit_reader.md R90 to R98): the cursor over the input
window and the bit-level and byte-aligned reads. -/

namespace Sys2Proof

/-- The Bit Reader's view: the input space and the three registers of 10_state.md R11. -/
structure Reader where
  mem : Mem
  byteCursor : Nat
  bitCursor : BitVec 3
  limit : Nat
deriving DecidableEq, Repr

/-- What a read of the stream gives: a value and the reader after it, or the fault the read raises
and the reader as it stands at the raise (40_bit_reader.md R97). -/
inductive Read (α : Type) where
  | ok (a : α) (r : Reader)
  | raise (k : ErrKind) (r : Reader)
deriving DecidableEq, Repr

/-- One read after another; nothing after a raise runs (00_scope.md R7). -/
def Read.bind {α β : Type} (x : Read α) (f : α → Reader → Read β) : Read β :=
  match x with
  | .ok a r => f a r
  | .raise k r => .raise k r

namespace Reader

/-- The stream position of the next unread bit (10_state.md R12). -/
def pos (r : Reader) : Nat := 8 * r.byteCursor + r.bitCursor.toNat

/-- One past the last stream position of the window (40_bit_reader.md R98). -/
def endPos (r : Reader) : Nat := 8 * r.limit

/-- The invariant of 10_state.md R11. -/
abbrev wf (r : Reader) : Prop :=
  r.byteCursor ≤ r.limit ∧ (r.bitCursor ≠ 0#3 → r.byteCursor < r.limit)

/-- Stream bit number `k`, bit `k mod 8` of byte `k div 8` (00_scope.md R8). -/
def bitAt (r : Reader) (k : Nat) : Bool := (r.mem.read (k / 8)).getLsbD (k % 8)

/-- `next_bit()` (40_bit_reader.md R91). -/
def nextBit (r : Reader) : Read Bool :=
  if r.limit ≤ r.byteCursor then .raise .inputUnderrun r
  else
    let b := (r.mem.read r.byteCursor).getLsbD r.bitCursor.toNat
    if r.bitCursor = 7#3 then
      .ok b { r with bitCursor := 0#3, byteCursor := r.byteCursor + 1 }
    else .ok b { r with bitCursor := r.bitCursor + 1#3 }

/-- `next_bits(n)` (40_bit_reader.md R92): the first bit read is the least significant. -/
def nextBits : Nat → Reader → Read Nat
  | 0, r => .ok 0 r
  | n + 1, r =>
    r.nextBit.bind fun b r => (nextBits n r).bind fun v r => .ok (b.toNat + 2 * v) r

/-- `align()` (40_bit_reader.md R93). -/
def align (r : Reader) : Reader :=
  if r.bitCursor = 0#3 then r
  else { r with bitCursor := 0#3, byteCursor := r.byteCursor + 1 }

/-- `next_byte()` (40_bit_reader.md R94). -/
def nextByte (r : Reader) : Read Byte :=
  let r := r.align
  if r.limit ≤ r.byteCursor then .raise .inputUnderrun r
  else .ok (r.mem.read r.byteCursor) { r with byteCursor := r.byteCursor + 1 }

/-- `next_bytes_as_number(n)` (40_bit_reader.md R95): little-endian. -/
def nextBytesAsNumber : Nat → Reader → Read Nat
  | 0, r => .ok 0 r
  | n + 1, r =>
    r.nextByte.bind fun b r =>
      (nextBytesAsNumber n r).bind fun v r => .ok (b.toNat + 256 * v) r

/-- `next_bytes_as_slice(n)` (40_bit_reader.md R96): aligns, then `n` whole bytes in order. The block
itself reads a stored body one byte at a time (42_block_state_machine.md R113). -/
def nextBytesAsSlice : Nat → Reader → Read (List Byte)
  | 0, r => .ok [] r.align
  | n + 1, r =>
    r.nextByte.bind fun b r => (nextBytesAsSlice n r).bind fun bs r => .ok (b :: bs) r

/-- The unread bits of the window in stream order, `n` of them from stream position `k` on. -/
def bitsFrom (r : Reader) : Nat → Nat → List Bool
  | _, 0 => []
  | k, n + 1 => r.bitAt k :: bitsFrom r (k + 1) n

/-- The unread part of the stream (40_bit_reader.md R90). -/
def unread (r : Reader) : List Bool := r.bitsFrom r.pos (r.endPos - r.pos)

end Reader

end Sys2Proof
end

