-- ==== Sys2Proof/Machine/Tables.lean ====
section
/-! DEFINITION. The constant tables of 10_state.md R26. `LEN_*` and `DIST_*` are the spec's own
[from general knowledge] numbers (93_implementation_defined.md G1, G2; notes/assumptions/17.md). -/

namespace Sys2Proof

/-- `CL_PERM[0..18]` (30_encoding.md R67). -/
def clPerm : List Nat := [16, 17, 18, 0, 8, 7, 9, 6, 10, 5, 11, 4, 12, 3, 13, 2, 14, 1, 15]

/-- `FIXED_LL_LEN[0..287]` (30_encoding.md R63). -/
def fixedLlLen : List Nat :=
  List.replicate 144 8 ++ List.replicate 112 9 ++ List.replicate 24 7 ++ List.replicate 8 8

/-- `FIXED_D_LEN[0..29]` (30_encoding.md R63). -/
def fixedDLen : List Nat := List.replicate 30 5

/-- `LEN_BASE[0..28]` (30_encoding.md R70). -/
def lenBase : List Nat :=
  [3, 4, 5, 6, 7, 8, 9, 10, 11, 13, 15, 17, 19, 23, 27] ++
  [31, 35, 43, 51, 59, 67, 83, 99, 115, 131, 163, 195, 227, 258]

/-- `LEN_EXTRA[0..28]` (30_encoding.md R70). -/
def lenExtra : List Nat :=
  [0, 0, 0, 0, 0, 0, 0, 0, 1, 1, 1, 1, 2, 2, 2] ++
  [2, 3, 3, 3, 3, 4, 4, 4, 4, 5, 5, 5, 5, 0]

/-- `DIST_BASE[0..29]` (30_encoding.md R71). -/
def distBase : List Nat :=
  [1, 2, 3, 4, 5, 7, 9, 13, 17, 25, 33, 49, 65, 97, 129] ++
  [193, 257, 385, 513, 769, 1025, 1537, 2049, 3073, 4097, 6145, 8193, 12289, 16385, 24577]

/-- `DIST_EXTRA[0..29]` (30_encoding.md R71). -/
def distExtra : List Nat :=
  [0, 0, 0, 0, 1, 1, 2, 2, 3, 3, 4, 4, 5, 5, 6] ++
  [6, 7, 7, 8, 8, 9, 9, 10, 10, 11, 11, 12, 12, 13, 13]

/-- Entry `i` of a constant table. Every use is inside the table; beyond it the value is 0. -/
def entry (t : List Nat) (i : Nat) : Nat := t.getD i 0

end Sys2Proof
end

