-- ==== Sys2Proof/Machine/Huffman.lean ====
section
/-! DEFINITION. The huffman_decoder sub-block (41_huffman_decoder.md R100 to R109): the trees, their
construction and the decoding of a symbol. -/

namespace Sys2Proof

/-- A tree memory (10_state.md R24). A record is three independent options: a symbol (`leaf` with
`sym`), a 0-child and a 1-child, an absent child being `nil`. Links only point to later records, so
the records form a tree (41_huffman_decoder.md R100), and node indices are not observable (R109):
the model keeps the tree and not the indices (DESIGN CHOICE, notes/assumptions/9.md, safe). `nil` at
the top is an arena with no record in use. -/
inductive Tree where
  | nil
  | node (sym : Option (BitVec 9)) (c0 c1 : Tree)
deriving DecidableEq, Repr

namespace Tree

/-- `T.n`, the number of records in use (10_state.md R24). -/
def size : Tree → Nat
  | nil => 0
  | node _ c0 c1 => c0.size + c1.size + 1

/-- The root alone, `T.n = 1` (41_huffman_decoder.md R102). -/
def root : Tree := node none nil nil

/-- `insert(T, c, l, s)` (41_huffman_decoder.md R103), the code given as its bits in walking order,
most significant first. It never looks at a leaf mark on the way down, removes no child, and
overwrites the symbol of a leaf. -/
def insert (s : BitVec 9) : List Bool → Tree → Tree
  | [], nil => node (some s) nil nil
  | [], node _ c0 c1 => node (some s) c0 c1
  | false :: w, nil => node none (insert s w nil) nil
  | true :: w, nil => node none nil (insert s w nil)
  | false :: w, node x c0 c1 => node x (insert s w c0) c1
  | true :: w, node x c0 c1 => node x c0 (insert s w c1)

/-- The node of the bit string `w` (41_huffman_decoder.md R100), `nil` where there is none. -/
def nodeAt : Tree → List Bool → Tree
  | t, [] => t
  | nil, _ :: _ => nil
  | node _ c0 c1, b :: w => if b then nodeAt c1 w else nodeAt c0 w

/-- `leafsym(w)` (41_huffman_decoder.md R109). -/
def leafSym (t : Tree) (w : List Bool) : Option (BitVec 9) :=
  match t.nodeAt w with
  | nil => none
  | node x _ _ => x

/-- Whether the string `w` has a node, `exists` of 41_huffman_decoder.md R109. -/
def hasNode (t : Tree) (w : List Bool) : Bool := t.nodeAt w != nil

/-- The walk after a step of `decode_symbol`, at the node it has reached: stop at a leaf, otherwise
take the next bit (41_huffman_decoder.md R105). A window that ends here is TreeError
(40_bit_reader.md R97), and so is a child that is absent. -/
def arrive : Tree → Reader → Read (BitVec 9)
  | nil, r => .raise .treeError r
  | node (some s) _ _, r => .ok s r
  | node none c0 c1, r =>
    match r.nextBit with
    | .raise _ r => .raise .treeError r
    | .ok b r => if b then arrive c1 r else arrive c0 r

/-- The root as `decode_symbol` uses it: the leaf test is never made at the root (41_huffman_decoder.md
R105). An arena with no record in use is taken as a root alone; no rule decodes against one. -/
def asRoot : Tree → Tree
  | nil => root
  | node _ c0 c1 => node none c0 c1

/-- `decode_symbol(T)` (41_huffman_decoder.md R105). -/
def decodeSymbol (t : Tree) (r : Reader) : Read (BitVec 9) := t.asRoot.arrive r

/-- What `decode_symbol` does with a list of bits, by the abstract view of 41_huffman_decoder.md R109:
the symbol and the bits left, or none where the walk meets a missing child or the end. -/
def walk (t : Tree) : List Bool → Option (BitVec 9 × List Bool)
  | [] => none
  | b :: w =>
    match t with
    | nil => none
    | node _ c0 c1 =>
      match (if b then c1 else c0) with
      | nil => none
      | node (some s) _ _ => some (s, w)
      | node none d0 d1 => walk (node none d0 d1) w

end Tree

/-- The low `l` bits of a code register, most significant first (41_huffman_decoder.md R103). -/
def codeBits (c : BitVec 16) : Nat → List Bool
  | 0 => []
  | l + 1 => c.getLsbD l :: codeBits c l

/-- `count[0..15]`: how many positions have each length, length 0 ignored (41_huffman_decoder.md
R102). -/
def countLens (bl : List Nat) : List (BitVec 9) :=
  0#9 :: (List.range' 1 15).map fun l => BitVec.ofNat 9 (bl.count l)

/-- `first_code(l)` for each length from the counts of the lengths below it, modulo `2 ^ 16`
(41_huffman_decoder.md R102). -/
def firstCodes : BitVec 16 → List (BitVec 9) → List (BitVec 16)
  | _, [] => []
  | code, n :: ns => ((code + n.setWidth 16) <<< 1) :: firstCodes ((code + n.setWidth 16) <<< 1) ns

/-- `next_code[0..15]` before the first assignment; entry 0 is cleared and never used. -/
def initCodes (count : List (BitVec 9)) : List (BitVec 16) := 0#16 :: firstCodes 0#16 (count.take 15)

/-- What a build leaves: the tree and the scratch of 10_state.md R25. -/
structure Build where
  tree : Tree
  count : List (BitVec 9)
  nextCode : List (BitVec 16)
deriving DecidableEq, Repr

/-- The assignment loop of `build_tree` from position `i` on, "in alphabet order", the alphabet being
the identity (41_huffman_decoder.md R101, R102). -/
def assignCodes : Nat → List Nat → List (BitVec 16) → Tree → Tree × List (BitVec 16)
  | _, [], nc, t => (t, nc)
  | i, l :: bl, nc, t =>
    if l = 0 then assignCodes (i + 1) bl nc t
    else
      assignCodes (i + 1) bl (nc.set l (nc.getD l 0#16 + 1#16))
        (t.insert (BitVec.ofNat 9 i) (codeBits (nc.getD l 0#16) l))

/-- `build_tree(T, bitlengths, identity)` (41_huffman_decoder.md R102). It checks nothing (R106). -/
def buildTree (bl : List Nat) : Build :=
  let count := countLens bl
  let a := assignCodes 0 bl (initCodes count) Tree.root
  { tree := a.1, count := count, nextCode := a.2 }

/-- The literal/length tree of every fixed block (42_block_state_machine.md R114). -/
def fixedLlTree : Tree := (buildTree fixedLlLen).tree

/-- The symbol whose fixed literal/length code has length `l` and value `c`, by the table of
30_encoding.md R64. -/
def fixedLlLeaf (l c : Nat) : Option Nat :=
  if l = 7 ∧ c < 24 then some (256 + c)
  else if l = 8 ∧ 48 ≤ c ∧ c < 192 then some (c - 48)
  else if l = 8 ∧ 192 ≤ c ∧ c < 200 then some (280 + (c - 192))
  else if l = 9 ∧ 400 ≤ c then some (144 + (c - 400))
  else none

/-- The tree of the codes below the code of length `l` and value `c`, `n` levels deep. -/
def fixedLlBelow : Nat → Nat → Nat → Tree
  | 0, l, c =>
    match fixedLlLeaf l c with
    | some s => .node (some (BitVec.ofNat 9 s)) .nil .nil
    | none => .nil
  | n + 1, l, c =>
    match fixedLlLeaf l c with
    | some s => .node (some (BitVec.ofNat 9 s)) .nil .nil
    | none => .node none (fixedLlBelow n (l + 1) (2 * c)) (fixedLlBelow n (l + 1) (2 * c + 1))

/-- The same tree held as a constant, as 10_state.md R24 and 92_eei_decisions.md D29 allow; the words of
the opcode table are decoded against it. `Laws/Huffman.lean` proves it equal to `fixedLlTree`. -/
def fixedLlRom : Tree := fixedLlBelow 9 0 0

/-- The distance tree of every fixed block (42_block_state_machine.md R114). -/
def fixedDTree : Tree := (buildTree fixedDLen).tree

end Sys2Proof
end

