-- ==== Sys2Proof/WellFormed.lean ====
section
/-! DEFINITION. The checks on an element that its operands' types do not make already. -/

namespace Sys2Proof

/-- `CLLEN` carries `HCLEN + 4` lengths, so 4 to 19 of them (30_encoding.md R66, R67); every other
operand's range is its type. -/
def Instr.wellFormed : Instr → Bool
  | .cllen vs => decide (4 ≤ vs.length) && decide (vs.length ≤ 19)
  | _ => true

end Sys2Proof
end

