-- ==== Sys2Proof/Decode.lean ====
section
/-! DEFINITION. Decoding the stream into elements (30_encoding.md R60 to R75), total on any bytes, and
the encoder (30_encoding.md R76, R77). What an element is depends on what the block expects and on the
trees in force (30_encoding.md R74). A refusal to decode is an error kind (30_encoding.md R73). -/

namespace Sys2Proof

/-- What the block expects next from the Bit Reader. -/
inductive Expect where
  /-- A block header (R111). -/
  | header
  /-- The pad of a stored block (R113). -/
  | pad
  /-- LEN (R113). -/
  | len16
  /-- NLEN (R113). -/
  | nlen16
  /-- A raw byte of a stored block (R113). -/
  | byte
  /-- HLIT (R115). -/
  | hlit
  /-- HDIST (R115). -/
  | hdist
  /-- HCLEN (R115). -/
  | hclen
  /-- The `n` code-length lengths (R116). -/
  | cllen (n : Nat)
  /-- A code-length symbol with its extra bits (R118); `first` says that `idx = 0`. -/
  | clSym (t : Tree) (first : Bool)
  /-- A literal/length symbol with the extra bits of a length (R130, R133). -/
  | llSym (t : Tree)
  /-- The extra bits of the length symbol `s`, its code read already (R133). -/
  | lenX (s : Nat)
  /-- A distance symbol with its extra bits (R134). -/
  | dSym (t : Tree)
  /-- The extra bits of the distance symbol `d`, its code read already (R134). -/
  | distX (d : Nat)
deriving DecidableEq, Repr

/-- A raw field of `n` bits as the operand of an element (20_memory.md R47). -/
def rawField (n : Nat) (f : Nat → Instr) (r : Reader) : Read Instr :=
  (r.nextBits n).bind fun v r => .ok (f v) r

/-- A block header (30_encoding.md R61): BFINAL, then BTYPE. One element: where the window ends inside
it neither register is written (DESIGN CHOICE, notes/assumptions/10.md, safe). -/
def decodeHeader (r : Reader) : Read Instr :=
  r.nextBit.bind fun f r => (r.nextBits 2).bind fun t r =>
    match t with
    | 0 => .ok (.blockStored f) r
    | 1 => .ok (.blockFixed f) r
    | 2 => .ok (.blockDynamic f) r
    | _ => .ok (.blockReserved f) r

/-- `n` raw fields of 3 bits (30_encoding.md R67). One element: where the window ends inside it no entry
of `cl_len` is written, neither the clearing of 42_block_state_machine.md R116 nor the lengths read so
far (DESIGN CHOICE, notes/assumptions/10.md, safe). -/
def decodeClLens : Nat → Reader → Read (List (BitVec 3))
  | 0, r => .ok [] r
  | n + 1, r =>
    (r.nextBits 3).bind fun v r =>
      (decodeClLens n r).bind fun vs r => .ok (BitVec.ofNat 3 v :: vs) r

/-- The element of a code-length symbol (30_encoding.md R68). A 16 with no previous length is
refused before its extra bits are read (42_block_state_machine.md R120), a symbol above 18 by the last
arm of R118 (R123). -/
def clElement (first : Bool) (s : BitVec 9) (r : Reader) : Read Instr :=
  if s.toNat ≤ 15 then .ok (.cl (BitVec.ofNat 4 s.toNat)) r
  else if s.toNat = 16 then
    if first then .raise .repeatWithoutPrevious r
    else rawField 2 (fun v => .cl16 (BitVec.ofNat 2 v)) r
  else if s.toNat = 17 then rawField 3 (fun v => .cl17 (BitVec.ofNat 3 v)) r
  else if s.toNat = 18 then rawField 7 (fun v => .cl18 (BitVec.ofNat 7 v)) r
  else .raise .illegalSmallTree r

/-- The LENGTH element of symbol `s` (257 to 285) with extra value `x` (30_encoding.md R70). -/
def lengthElement (s x : Nat) : Instr :=
  match s with
  | 257 => .length257
  | 258 => .length258
  | 259 => .length259
  | 260 => .length260
  | 261 => .length261
  | 262 => .length262
  | 263 => .length263
  | 264 => .length264
  | 265 => .length265 (BitVec.ofNat 1 x)
  | 266 => .length266 (BitVec.ofNat 1 x)
  | 267 => .length267 (BitVec.ofNat 1 x)
  | 268 => .length268 (BitVec.ofNat 1 x)
  | 269 => .length269 (BitVec.ofNat 2 x)
  | 270 => .length270 (BitVec.ofNat 2 x)
  | 271 => .length271 (BitVec.ofNat 2 x)
  | 272 => .length272 (BitVec.ofNat 2 x)
  | 273 => .length273 (BitVec.ofNat 3 x)
  | 274 => .length274 (BitVec.ofNat 3 x)
  | 275 => .length275 (BitVec.ofNat 3 x)
  | 276 => .length276 (BitVec.ofNat 3 x)
  | 277 => .length277 (BitVec.ofNat 4 x)
  | 278 => .length278 (BitVec.ofNat 4 x)
  | 279 => .length279 (BitVec.ofNat 4 x)
  | 280 => .length280 (BitVec.ofNat 4 x)
  | 281 => .length281 (BitVec.ofNat 5 x)
  | 282 => .length282 (BitVec.ofNat 5 x)
  | 283 => .length283 (BitVec.ofNat 5 x)
  | 284 => .length284 (BitVec.ofNat 5 x)
  | _ => .length285

/-- The DIST element of symbol `d` with extra value `y` (30_encoding.md R71). -/
def distElement (d y : Nat) : Instr :=
  match d with
  | 0 => .dist0
  | 1 => .dist1
  | 2 => .dist2
  | 3 => .dist3
  | 4 => .dist4 (BitVec.ofNat 1 y)
  | 5 => .dist5 (BitVec.ofNat 1 y)
  | 6 => .dist6 (BitVec.ofNat 2 y)
  | 7 => .dist7 (BitVec.ofNat 2 y)
  | 8 => .dist8 (BitVec.ofNat 3 y)
  | 9 => .dist9 (BitVec.ofNat 3 y)
  | 10 => .dist10 (BitVec.ofNat 4 y)
  | 11 => .dist11 (BitVec.ofNat 4 y)
  | 12 => .dist12 (BitVec.ofNat 5 y)
  | 13 => .dist13 (BitVec.ofNat 5 y)
  | 14 => .dist14 (BitVec.ofNat 6 y)
  | 15 => .dist15 (BitVec.ofNat 6 y)
  | 16 => .dist16 (BitVec.ofNat 7 y)
  | 17 => .dist17 (BitVec.ofNat 7 y)
  | 18 => .dist18 (BitVec.ofNat 8 y)
  | 19 => .dist19 (BitVec.ofNat 8 y)
  | 20 => .dist20 (BitVec.ofNat 9 y)
  | 21 => .dist21 (BitVec.ofNat 9 y)
  | 22 => .dist22 (BitVec.ofNat 10 y)
  | 23 => .dist23 (BitVec.ofNat 10 y)
  | 24 => .dist24 (BitVec.ofNat 11 y)
  | 25 => .dist25 (BitVec.ofNat 11 y)
  | 26 => .dist26 (BitVec.ofNat 12 y)
  | 27 => .dist27 (BitVec.ofNat 12 y)
  | 28 => .dist28 (BitVec.ofNat 13 y)
  | _ => .dist29 (BitVec.ofNat 13 y)

/-- Whether a literal/length symbol starts a LENGTH element (30_encoding.md R69). -/
def isLength (s : Nat) : Bool := decide (257 ≤ s) && decide (s ≤ 285)

/-- The element of a literal/length symbol (30_encoding.md R69): LENGTH reads its extra bits; any
symbol above 287 is in no tree of at most 288 positions and is refused as R136 says. -/
def llElement (s : Nat) (r : Reader) : Read Instr :=
  if s ≤ 255 then .ok (.lit (BitVec.ofNat 8 s)) r
  else if s = 256 then .ok .eob r
  else if isLength s then rawField (entry lenExtra (s - 257)) (lengthElement s) r
  else if s = 286 then .ok .llsym286 r
  else if s = 287 then .ok .llsym287 r
  else .raise .treeError r

/-- The element of a distance symbol (30_encoding.md R69): any symbol above 31 is in no tree of at
most 32 positions and is refused as R137 says. -/
def dElement (d : Nat) (r : Reader) : Read Instr :=
  if d ≤ 29 then rawField (entry distExtra d) (distElement d) r
  else if d = 30 then .ok .dsym30 r
  else if d = 31 then .ok .dsym31 r
  else .raise .treeError r

/-- The element the block meets when it expects `e` (30_encoding.md R60). -/
def decode (e : Expect) (r : Reader) : Read Instr :=
  match e with
  | .header => decodeHeader r
  | .pad => .ok .pad r.align
  | .len16 => (r.nextBytesAsNumber 2).bind fun v r => .ok (.len16 (BitVec.ofNat 16 v)) r
  | .nlen16 => (r.nextBytesAsNumber 2).bind fun v r => .ok (.nlen16 (BitVec.ofNat 16 v)) r
  | .byte => r.nextByte.bind fun v r => .ok (.byte v) r
  | .hlit => rawField 5 (fun v => .hlit (BitVec.ofNat 5 v)) r
  | .hdist => rawField 5 (fun v => .hdist (BitVec.ofNat 5 v)) r
  | .hclen => rawField 4 (fun v => .hclen (BitVec.ofNat 4 v)) r
  | .cllen n => (decodeClLens n r).bind fun vs r => .ok (.cllen vs) r
  | .clSym t first => (t.decodeSymbol r).bind fun s r => clElement first s r
  | .llSym t => (t.decodeSymbol r).bind fun s r => llElement s.toNat r
  | .lenX s => llElement s r
  | .dSym t => (t.decodeSymbol r).bind fun s r => dElement s.toNat r
  | .distX d => dElement d r

/-- The header of the zlib envelope, read from the input space itself and not through the Bit Reader
(44_stream_and_wrapper.md R150). -/
def decodeEnvelope (m : Mem) : Instr := .zhdr (m.read 0) (m.read 1)

/-- A host write of `CTRL` as a command (10_state.md R16): a START when bit 0 is 1, with MODE bit 1. -/
def decodeCtrl (v : BitVec 32) : Option Instr :=
  if v.getLsbD 0 then some (.start (if v.getLsbD 1 then .zlib else .raw)) else none

/-! The encoder. -/

/-- The codes in force, as the bits of each symbol in stream order (30_encoding.md R77): of the
code-length, the literal/length and the distance tree. -/
structure Codebook where
  cl : Nat → List Bool
  ll : Nat → List Bool
  d : Nat → List Bool

/-- A raw field of `n` bits with value `v`: `v[0], v[1], ...` (30_encoding.md R77). -/
def rawBits : Nat → Nat → List Bool
  | 0, _ => []
  | n + 1, v => v.testBit 0 :: rawBits n (v / 2)

/-- A code of `n` bits with value `c`: `c[n-1], ..., c[0]` (30_encoding.md R77). -/
def huffBits : Nat → Nat → List Bool
  | 0, _ => []
  | n + 1, c => c.testBit n :: huffBits n c

/-- The fixed literal/length codes by the table of 30_encoding.md R64. -/
def fixedLlCode (s : Nat) : List Bool :=
  if s ≤ 143 then huffBits 8 (48 + s)
  else if s ≤ 255 then huffBits 9 (400 + (s - 144))
  else if s ≤ 279 then huffBits 7 (s - 256)
  else huffBits 8 (192 + (s - 280))

/-- The codes of a fixed block (30_encoding.md R64, R65); it has no code-length tree. -/
def fixedCodes : Codebook := ⟨fun _ => [], fixedLlCode, huffBits 5⟩

/-- The literal/length symbol of a LENGTH element and its extra value (30_encoding.md R70). -/
def Instr.lengthParts : Instr → Option (Nat × Nat)
  | .length257 => some (257, 0)
  | .length258 => some (258, 0)
  | .length259 => some (259, 0)
  | .length260 => some (260, 0)
  | .length261 => some (261, 0)
  | .length262 => some (262, 0)
  | .length263 => some (263, 0)
  | .length264 => some (264, 0)
  | .length265 x => some (265, x.toNat)
  | .length266 x => some (266, x.toNat)
  | .length267 x => some (267, x.toNat)
  | .length268 x => some (268, x.toNat)
  | .length269 x => some (269, x.toNat)
  | .length270 x => some (270, x.toNat)
  | .length271 x => some (271, x.toNat)
  | .length272 x => some (272, x.toNat)
  | .length273 x => some (273, x.toNat)
  | .length274 x => some (274, x.toNat)
  | .length275 x => some (275, x.toNat)
  | .length276 x => some (276, x.toNat)
  | .length277 x => some (277, x.toNat)
  | .length278 x => some (278, x.toNat)
  | .length279 x => some (279, x.toNat)
  | .length280 x => some (280, x.toNat)
  | .length281 x => some (281, x.toNat)
  | .length282 x => some (282, x.toNat)
  | .length283 x => some (283, x.toNat)
  | .length284 x => some (284, x.toNat)
  | .length285 => some (285, 0)
  | _ => none

/-- The distance symbol of a DIST element and its extra value (30_encoding.md R71). -/
def Instr.distParts : Instr → Option (Nat × Nat)
  | .dist0 => some (0, 0)
  | .dist1 => some (1, 0)
  | .dist2 => some (2, 0)
  | .dist3 => some (3, 0)
  | .dist4 y => some (4, y.toNat)
  | .dist5 y => some (5, y.toNat)
  | .dist6 y => some (6, y.toNat)
  | .dist7 y => some (7, y.toNat)
  | .dist8 y => some (8, y.toNat)
  | .dist9 y => some (9, y.toNat)
  | .dist10 y => some (10, y.toNat)
  | .dist11 y => some (11, y.toNat)
  | .dist12 y => some (12, y.toNat)
  | .dist13 y => some (13, y.toNat)
  | .dist14 y => some (14, y.toNat)
  | .dist15 y => some (15, y.toNat)
  | .dist16 y => some (16, y.toNat)
  | .dist17 y => some (17, y.toNat)
  | .dist18 y => some (18, y.toNat)
  | .dist19 y => some (19, y.toNat)
  | .dist20 y => some (20, y.toNat)
  | .dist21 y => some (21, y.toNat)
  | .dist22 y => some (22, y.toNat)
  | .dist23 y => some (23, y.toNat)
  | .dist24 y => some (24, y.toNat)
  | .dist25 y => some (25, y.toNat)
  | .dist26 y => some (26, y.toNat)
  | .dist27 y => some (27, y.toNat)
  | .dist28 y => some (28, y.toNat)
  | .dist29 y => some (29, y.toNat)
  | _ => none

/-- The bits of a LENGTH element: its code, then its extra bits (30_encoding.md R76). -/
def encodeLength (k : Codebook) (p : Nat × Nat) : List Bool :=
  k.ll p.1 ++ rawBits (entry lenExtra (p.1 - 257)) p.2

/-- The bits of a DIST element: its code, then its extra bits (30_encoding.md R76). -/
def encodeDist (k : Codebook) (p : Nat × Nat) : List Bool :=
  k.d p.1 ++ rawBits (entry distExtra p.1) p.2

/-- The stream bits of an element that starts at stream position `pos`, with the codes `k` in force
(30_encoding.md R76, R77). The bits that are never examined are written as zeros; START is the CTRL
word of 10_state.md R16; RESET is a wire and has no bits. -/
def encode (k : Codebook) (pos : Nat) (i : Instr) : List Bool :=
  match i with
  | .blockStored f => [f, false, false]
  | .blockFixed f => [f, true, false]
  | .blockDynamic f => [f, false, true]
  | .blockReserved f => [f, true, true]
  | .pad => List.replicate ((8 - pos % 8) % 8) false
  | .len16 n => rawBits 16 n.toNat
  | .nlen16 n => rawBits 16 n.toNat
  | .byte x => rawBits 8 x.toNat
  | .hlit v => rawBits 5 v.toNat
  | .hdist v => rawBits 5 v.toNat
  | .hclen v => rawBits 4 v.toNat
  | .cllen vs => vs.flatMap fun v => rawBits 3 v.toNat
  | .cl n => k.cl n.toNat
  | .cl16 r => k.cl 16 ++ rawBits 2 r.toNat
  | .cl17 r => k.cl 17 ++ rawBits 3 r.toNat
  | .cl18 r => k.cl 18 ++ rawBits 7 r.toNat
  | .lit x => k.ll x.toNat
  | .eob => k.ll 256
  | .llsym286 => k.ll 286
  | .llsym287 => k.ll 287
  | .dsym30 => k.d 30
  | .dsym31 => k.d 31
  | .zhdr b0 b1 => rawBits 8 b0.toNat ++ rawBits 8 b1.toNat
  | .dictid => List.replicate 32 false
  | .adler => List.replicate 32 false
  | .start m => true :: (m == .zlib) :: List.replicate 30 false
  | .reset => []
  | .length257 => encodeLength k (257, 0)
  | .length258 => encodeLength k (258, 0)
  | .length259 => encodeLength k (259, 0)
  | .length260 => encodeLength k (260, 0)
  | .length261 => encodeLength k (261, 0)
  | .length262 => encodeLength k (262, 0)
  | .length263 => encodeLength k (263, 0)
  | .length264 => encodeLength k (264, 0)
  | .length265 x => encodeLength k (265, x.toNat)
  | .length266 x => encodeLength k (266, x.toNat)
  | .length267 x => encodeLength k (267, x.toNat)
  | .length268 x => encodeLength k (268, x.toNat)
  | .length269 x => encodeLength k (269, x.toNat)
  | .length270 x => encodeLength k (270, x.toNat)
  | .length271 x => encodeLength k (271, x.toNat)
  | .length272 x => encodeLength k (272, x.toNat)
  | .length273 x => encodeLength k (273, x.toNat)
  | .length274 x => encodeLength k (274, x.toNat)
  | .length275 x => encodeLength k (275, x.toNat)
  | .length276 x => encodeLength k (276, x.toNat)
  | .length277 x => encodeLength k (277, x.toNat)
  | .length278 x => encodeLength k (278, x.toNat)
  | .length279 x => encodeLength k (279, x.toNat)
  | .length280 x => encodeLength k (280, x.toNat)
  | .length281 x => encodeLength k (281, x.toNat)
  | .length282 x => encodeLength k (282, x.toNat)
  | .length283 x => encodeLength k (283, x.toNat)
  | .length284 x => encodeLength k (284, x.toNat)
  | .length285 => encodeLength k (285, 0)
  | .dist0 => encodeDist k (0, 0)
  | .dist1 => encodeDist k (1, 0)
  | .dist2 => encodeDist k (2, 0)
  | .dist3 => encodeDist k (3, 0)
  | .dist4 y => encodeDist k (4, y.toNat)
  | .dist5 y => encodeDist k (5, y.toNat)
  | .dist6 y => encodeDist k (6, y.toNat)
  | .dist7 y => encodeDist k (7, y.toNat)
  | .dist8 y => encodeDist k (8, y.toNat)
  | .dist9 y => encodeDist k (9, y.toNat)
  | .dist10 y => encodeDist k (10, y.toNat)
  | .dist11 y => encodeDist k (11, y.toNat)
  | .dist12 y => encodeDist k (12, y.toNat)
  | .dist13 y => encodeDist k (13, y.toNat)
  | .dist14 y => encodeDist k (14, y.toNat)
  | .dist15 y => encodeDist k (15, y.toNat)
  | .dist16 y => encodeDist k (16, y.toNat)
  | .dist17 y => encodeDist k (17, y.toNat)
  | .dist18 y => encodeDist k (18, y.toNat)
  | .dist19 y => encodeDist k (19, y.toNat)
  | .dist20 y => encodeDist k (20, y.toNat)
  | .dist21 y => encodeDist k (21, y.toNat)
  | .dist22 y => encodeDist k (22, y.toNat)
  | .dist23 y => encodeDist k (23, y.toNat)
  | .dist24 y => encodeDist k (24, y.toNat)
  | .dist25 y => encodeDist k (25, y.toNat)
  | .dist26 y => encodeDist k (26, y.toNat)
  | .dist27 y => encodeDist k (27, y.toNat)
  | .dist28 y => encodeDist k (28, y.toNat)
  | .dist29 y => encodeDist k (29, y.toNat)

/-- Bits packed into bytes, the first bit of each eight being bit 0, zeros to fill the last byte
(30_encoding.md R77). `n` bounds the number of bytes. -/
def packBytes : Nat → List Bool → List Byte
  | 0, _ => []
  | n + 1, bits =>
    if bits.isEmpty then []
    else
      BitVec.ofNat 8 ((bits.take 8).foldr (fun b v => b.toNat + 2 * v) 0) ::
        packBytes n (bits.drop 8)

/-- A reader at the start of a window that holds exactly the bytes `bs`. -/
def readerOf (bs : List Byte) : Reader :=
  { mem := Mem.load [] 0 bs, byteCursor := 0, bitCursor := 0#3, limit := bs.length }

/-! The words of spec/opcode_table.json (notes/assumptions/15.md). -/

/-- How a row of the table is read: what the block expects where the row's word stands. -/
inductive TableClass where
  | host      -- a host write of CTRL
  | header    -- a block header, bit 0 of the word first in the stream
  | litLen    -- an element of the fixed literal/length code, the word's top bit first in the stream
  | distance  -- an element of the fixed distance code, the word's top bit first in the stream
deriving DecidableEq, Repr

/-- The row class of a word, by the fixed bits the table gives its rows (notes/assumptions/15.md). -/
def tableClass (nbits w : Nat) : TableClass :=
  if nbits ≤ 8 then
    if w = 1 then .host
    else if w < 8 then .header
    else if w / 16 = 4 then .distance
    else .litLen
  else if nbits ≤ 16 then
    if w / 4096 = 12 then .distance else .litLen
  else .host

/-- The stream bits of a table word (30_encoding.md R78): a header's pattern is over `next_bits(3)`,
so bit 0 is first; a Huffman row's pattern has its first-consumed bit leftmost. -/
def tableBits (nbits w : Nat) : List Bool :=
  match tableClass nbits w with
  | .host => rawBits nbits w
  | .header => rawBits nbits w
  | .litLen => huffBits nbits w
  | .distance => huffBits nbits w

/-- The bytes of a table word as they stand in IN, with eight bytes of zeros after it: no element is
longer than that. -/
def tableBytes (nbits w : Nat) : List Byte :=
  packBytes nbits (tableBits nbits w) ++ List.replicate 8 0#8

/-- The value a read gives, `none` where it raises. -/
def Read.toOption {α : Type} : Read α → Option α
  | .ok a _ => some a
  | .raise _ _ => none

/-- The instruction the decoder reads from a word of the table, `nbits` bits numbered as the table
numbers them. -/
def decodeTableWord (nbits w : Nat) : Option Instr :=
  match tableClass nbits w with
  | .host => decodeCtrl (BitVec.ofNat 32 w)
  | .header => (decode .header (readerOf (tableBytes nbits w))).toOption
  | .litLen => (decode (.llSym fixedLlRom) (readerOf (tableBytes nbits w))).toOption
  | .distance => (decode (.dSym fixedDTree) (readerOf (tableBytes nbits w))).toOption

end Sys2Proof
end

