-- ==== Sys2Proof/Machine/State.lean ====
section
/-! DEFINITION. The state of the block as plain data (10_state.md R10 to R31), its two memories, the
host's pending accesses, and the reasons a step can stop. -/

namespace Sys2Proof.Machine

/-- Why a step stops the model. The block's own faults are not here: `raise` is a next state
(60_exceptions.md R163). -/
inductive Fault where
  /-- A host access to an address outside `IN` (`0 .. IN_CAP-1`) or `OUT` (`0 .. OUT_CAP-1`), which the
  spec says does not exist (20_memory.md R41, R42). Raised by the host port. Safe. -/
  | hostAddress (a : Nat)
  /-- A read of `IN` through a window that is not inside `0 .. IN_LEN-1` and `IN_CAP`, which 00_scope.md
  R7 does not define. Raised by a fetch; no state with the invariant `State.Inv` meets it. Safe. -/
  | inRead
  /-- A read of `OUT` at an address that is not below `out_len`, which 00_scope.md R7 does not define.
  Raised by the copy row; no state with the invariant `State.Inv` meets it. Safe. -/
  | outRead
deriving DecidableEq, Repr

/-- What the model gives no meaning to. -/
inductive Refusal where
  /-- An instruction of the table that has no meaning yet. Raised by `exec` alone. Safe. -/
  | notModelled (mnemonic : String)
  /-- A launch with `IN_LEN > IN_CAP`: "a model refuses a launch that has one" (10_state.md R17). Raised
  by START. Safe. -/
  | launchAboveInCap
  /-- A host write to `IN`, `IN_LEN` or `OUT` while BUSY: "outside the model (no transition is given, no
  claim survives)" (70_reset_and_hazards.md R189). Raised by the host port. Safe. -/
  | hostWriteWhileBusy
deriving DecidableEq, Repr

/-- The values of `state` (10_state.md R13). Their numeric encoding is not fixed. -/
inductive BlockState where
  | idle | zhdr | blkHdr | stHdr | stCopy | fxSetup | dyCounts | dyClen | dyCltree | dyLens
  | dyTrees | sym | lenX | distSym | distX | copy | blkEnd | done | error
deriving DecidableEq, Repr

/-- The values of `STATUS.RUN` (10_state.md R18). -/
inductive Run where
  | idle | busy | done | error
deriving DecidableEq, Repr

/-- Which element of the current row of R110 comes next, where a row has several: `ZHDR`, `DICTID`,
`ADLER` in state ZHDR, `PAD`, `LEN16`, `NLEN16` in state ST_HDR, `HLIT`, `HDIST`, `HCLEN` in state
DY_COUNTS. The model's own (DESIGN CHOICE, notes/assumptions/2.md, safe). -/
inductive Part where
  | first | second | third
deriving DecidableEq, Repr

/-- The host's registers by name (10_state.md R16 to R20); the numbers 0 to 4 are indices for naming. -/
inductive HostReg where
  | ctrl | inLen | status | err | outLen
deriving DecidableEq, Repr

/-- One access of the host, or the wire `rst`, or one step with no access (44_stream_and_wrapper.md
R155; 70_reset_and_hazards.md R185). Each takes one step of the model (DESIGN CHOICE,
notes/assumptions/3.md). -/
inductive HostOp where
  /-- No access: the block takes one step. -/
  | run
  /-- A write of the register `CTRL` (R16). -/
  | writeCtrl (v : BitVec 32)
  /-- A write of the register `IN_LEN` (R17). -/
  | writeInLen (n : Nat)
  /-- A write of one byte of `IN`. -/
  | writeIn (a : Nat) (v : Byte)
  /-- A write of one byte of `OUT`. -/
  | writeOut (a : Nat) (v : Byte)
  /-- A read of a register. -/
  | readReg (r : HostReg)
  /-- A read of one byte of `OUT`. -/
  | readOut (a : Nat)
  /-- `rst` sampled high at a clock edge (R185). -/
  | assertReset
deriving DecidableEq, Repr

/-- The state. Field by field with rule, width and reset value: INVENTORY.md, '## State'. Registers
whose width is derived from a parameter are natural numbers (DESIGN CHOICE, notes/assumptions/12.md). -/
structure State where
  /-- The parameters, constant (00_scope.md R5). -/
  par : Params
  /-- `CTRL.MODE` (R16). -/
  mode : Mode
  /-- `IN_LEN` (R17). -/
  inLen : Nat
  /-- `ERR` (R19). -/
  err : BitVec 4
  /-- `state` (R13). -/
  state : BlockState
  /-- The model's own: the next element of a row with several. -/
  part : Part
  /-- `byte_cursor` (R11). -/
  byteCursor : Nat
  /-- `bit_cursor` (R11). -/
  bitCursor : BitVec 3
  /-- `limit` (R11). -/
  limit : Nat
  /-- `bfinal` (R14). -/
  bfinal : Bool
  /-- `btype` (R14). -/
  btype : BitVec 2
  /-- `blocks` (R14). -/
  blocks : Nat
  /-- `st_len` (R21). -/
  stLen : BitVec 16
  /-- `st_nlen` (R21). -/
  stNlen : BitVec 16
  /-- `st_rem` (R21). -/
  stRem : BitVec 16
  /-- `hlit` (R22). -/
  hlit : BitVec 5
  /-- `hdist` (R22). -/
  hdist : BitVec 5
  /-- `hclen` (R22). -/
  hclen : BitVec 4
  /-- `cl_len[0..18]` (R22). -/
  clLen : List (BitVec 3)
  /-- `lens[0..319]` (R22). -/
  lens : List (BitVec 4)
  /-- `total` (R22). -/
  total : BitVec 9
  /-- `idx` (R22). -/
  idx : BitVec 9
  /-- `rep` (R22). -/
  rep : BitVec 8
  /-- `sym` (R23). -/
  sym : BitVec 9
  /-- `length` (R23). -/
  length : BitVec 9
  /-- `dsym` (R23). -/
  dsym : BitVec 5
  /-- `dist` (R23). -/
  dist : BitVec 16
  /-- `copy_rem` (R23). -/
  copyRem : BitVec 9
  /-- `out_len` (R27), which the host reads as `OUT_LEN` (R20). -/
  outLen : Nat
  /-- `CLT` (R24). -/
  clt : Tree
  /-- `LLT` (R24). -/
  llt : Tree
  /-- `DT` (R24). -/
  dt : Tree
  /-- `count[0..15]` (R25). -/
  count : List (BitVec 9)
  /-- `next_code[0..15]` (R25). -/
  nextCode : List (BitVec 16)
  /-- The space `IN` (20_memory.md R41). -/
  inMem : Mem
  /-- The space `OUT` (20_memory.md R42). -/
  outMem : Mem
  /-- The model's own: the host's accesses still to come, oldest first. -/
  host : List HostOp
  /-- The model's own: what the host's last read returned. -/
  hostData : Nat
  /-- The model's own: how many free values have been drawn. -/
  free : Nat
deriving DecidableEq, Repr

/-- The machine right after reset (10_state.md R30). The arrays and memories, which R30 leaves
unspecified, hold what notes/assumptions/6.md and 8.md name, the parameters what 1.md names. -/
def State.reset : State where
  par := Params.atReset
  mode := .raw
  inLen := 0
  err := 0#4
  state := .idle
  part := .first
  byteCursor := 0
  bitCursor := 0#3
  limit := 0
  bfinal := false
  btype := 0#2
  blocks := 0
  stLen := 0#16
  stNlen := 0#16
  stRem := 0#16
  hlit := 0#5
  hdist := 0#5
  hclen := 0#4
  clLen := List.replicate 19 0#3
  lens := List.replicate 320 0#4
  total := 0#9
  idx := 0#9
  rep := 0#8
  sym := 0#9
  length := 0#9
  dsym := 0#5
  dist := 0#16
  copyRem := 0#9
  outLen := 0
  clt := .nil
  llt := .nil
  dt := .nil
  count := List.replicate 16 0#9
  nextCode := List.replicate 16 0#16
  inMem := []
  outMem := []
  host := []
  hostData := 0
  free := 0

end Sys2Proof.Machine
end

