-- ==== Sys2Proof/Machine/Ops.lean ====
section
/-! DEFINITION. The named operations over the state: the Bit Reader's registers, taking a fault and
beginning a call, the append to the output, the bit-length array and the builds. -/

namespace Sys2Proof.Machine

/-- The Bit Reader's view of the state (40_bit_reader.md R90). -/
def State.reader (s : State) : Reader :=
  { mem := s.inMem, byteCursor := s.byteCursor, bitCursor := s.bitCursor, limit := s.limit }

/-- The state with the cursor where a read has left it; a read changes nothing else
(40_bit_reader.md, "Side effects: purely cursor advancement"). -/
def State.withReader (s : State) (r : Reader) : State :=
  { s with byteCursor := r.byteCursor, bitCursor := r.bitCursor }

/-- The stream position, the block's analogue of a program counter (10_state.md R12). -/
def State.pos (s : State) : Nat := 8 * s.byteCursor + s.bitCursor.toNat

/-- Whether every read through the window is defined: the window lies inside `0 .. IN_LEN-1` and the
input space (00_scope.md R7; 20_memory.md R41). -/
def State.inReadable (s : State) : Bool :=
  decide (s.limit ≤ s.inLen) && decide (s.inLen ≤ s.par.inCap)

/-- The numeric code of an error kind (60_exceptions.md R161). -/
def errCode : ErrKind → BitVec 4
  | .illegalBlockFormat => 1#4
  | .uncompressedLengthMismatch => 2#4
  | .treeError => 3#4
  | .illegalSmallTree => 4#4
  | .inputUnderrun => 5#4
  | .distanceTooFar => 6#4
  | .missingFinalBlock => 7#4
  | .outputOverflow => 8#4
  | .repeatWithoutPrevious => 9#4
  | .codeLengthOverrun => 10#4

/-- `raise K`, the one fault entry (60_exceptions.md R163): the kind in `ERR`, the state ERROR, nothing
else. There is no return from it (R176): START or reset leaves ERROR. -/
def State.raise (s : State) (k : ErrKind) : State :=
  { s with err := errCode k, state := .error }

/-- The start of a call (44_stream_and_wrapper.md R147, R146), which also leaves DONE and ERROR. The
working registers and arenas hold no value any more (10_state.md R31): no rule reads them before it
writes them, and the model leaves them as they are (notes/assumptions/7.md). -/
def State.begin (s : State) : State :=
  match s.mode with
  | .raw =>
    { s with
      err := 0#4, outLen := 0, blocks := 0, bitCursor := 0#3, byteCursor := 0, limit := s.inLen,
      state := .blkHdr, part := .first }
  | .zlib =>
    { s with
      err := 0#4, outLen := 0, blocks := 0, bitCursor := 0#3, state := .zhdr, part := .first }

/-- The reset state (10_state.md R30; 70_reset_and_hazards.md R185): every register R30 gives a value.
What R30 leaves unspecified (arrays, arenas, the two memories) is left as it is (DESIGN CHOICE,
notes/assumptions/7.md); the parameters and the model's own host fields, no state of the block, are
kept (DESIGN CHOICE, notes/assumptions/24.md). -/
def State.toReset (s : State) : State :=
  { State.reset with
    par := s.par, clLen := s.clLen, lens := s.lens, clt := s.clt, llt := s.llt, dt := s.dt,
    count := s.count, nextCode := s.nextCode, inMem := s.inMem, outMem := s.outMem,
    host := s.host, hostData := s.hostData, free := s.free }

/-- `OutAppend(v)` and then `next` (43_lz77_symbols.md R138): OutputOverflow when the output is full,
and then nothing after it runs. -/
def State.outAppend (s : State) (v : Byte) (next : State → State) : State :=
  if s.outLen = s.par.outCap then s.raise .outputOverflow
  else next { s with outMem := s.outMem.write s.outLen v, outLen := s.outLen + 1 }

/-- `a[i + k] <- v` for `k in 0 .. n` (00_scope.md R7). -/
def fill {α : Type} (v : α) : List α → Nat → Nat → List α
  | [], _, _ => []
  | x :: xs, i + 1, n => x :: fill v xs i n
  | x :: xs, 0, 0 => x :: xs
  | _ :: xs, 0, n + 1 => v :: fill v xs 0 n

/-- The common part of CL16, CL17 and CL18 (42_block_state_machine.md R120 to R122): `rep` copies of the
bit length `v`, CodeLengthOverrun before anything is written when they would pass `total`. -/
def State.repeatLen (s : State) (v : BitVec 4) (rep : BitVec 8) : State :=
  let s := { s with rep := rep }
  if s.total.toNat < s.idx.toNat + rep.toNat then s.raise .codeLengthOverrun
  else
    { s with
      lens := fill v s.lens s.idx.toNat rep.toNat, idx := BitVec.ofNat 9 (s.idx.toNat + rep.toNat) }

/-- `cl_len[CL_PERM[i]] <- v_i` in order, from position `i` on, over an array of zeros
(42_block_state_machine.md R116). -/
def permute : List Nat → List (BitVec 3) → List (BitVec 3) → List (BitVec 3)
  | p :: ps, v :: vs, a => permute ps vs (a.set p v)
  | _, _, a => a

/-- The scratch a build leaves (10_state.md R25). -/
def State.withScratch (s : State) (b : Build) : State :=
  { s with count := b.count, nextCode := b.nextCode }

/-- The literal/length bit lengths of a dynamic block, `lens[0 .. hlit+256]`
(42_block_state_machine.md R124). -/
def State.llLens (s : State) : List Nat := (s.lens.take (s.hlit.toNat + 257)).map BitVec.toNat

/-- The distance bit lengths of a dynamic block, `lens[hlit+257 .. total-1]`
(42_block_state_machine.md R124). -/
def State.dLens (s : State) : List Nat :=
  ((s.lens.drop (s.hlit.toNat + 257)).take (s.hdist.toNat + 1)).map BitVec.toNat

end Sys2Proof.Machine
end

