-- ==== Sys2Proof/Machine/Flags.lean ====
section
/-! DEFINITION. The block has no condition codes (10_state.md R15). What the host reads as status is a
function of the state and holds nothing of its own (10_state.md R16, R18; 60_exceptions.md R177). -/

namespace Sys2Proof.Machine

/-- `STATUS.RUN` (10_state.md R18). -/
def State.run (s : State) : Run :=
  match s.state with
  | .idle => .idle
  | .done => .done
  | .error => .error
  | _ => .busy

/-- `STATUS.RUN = BUSY`: `state` is any of ZHDR to BLK_END (10_state.md R18). -/
def State.busy (s : State) : Bool := s.run == .busy

/-- The number of a value of `STATUS.RUN` (10_state.md R18). -/
def Run.code : Run → Nat
  | .idle => 0
  | .busy => 1
  | .done => 2
  | .error => 3

/-- The number of a value of `CTRL.MODE` (10_state.md R16). -/
def modeBit : Mode → Nat
  | .raw => 0
  | .zlib => 1

/-- `CTRL` as the host reads it: START reads as 0, MODE is bit 1, the rest reads 0 (10_state.md R16). -/
def State.readCtrl (s : State) : Nat := 2 * modeBit s.mode

/-- `STATUS` as the host reads it (10_state.md R18). -/
def State.readStatus (s : State) : Nat := s.run.code

/-- The output wire `done_o` (60_exceptions.md R177). -/
def State.doneO (s : State) : Bool := s.run == .done || s.run == .error

end Sys2Proof.Machine
end

