-- ==== Sys2Proof/Machine/Header.lean ====
section
/-! DEFINITION. The block headers (42_block_state_machine.md R111, R112, R126). The cap test comes before
the header is read, in the fetch (44_stream_and_wrapper.md R149). -/

namespace Sys2Proof.Machine

/-- The outcome of a step of this machine. -/
abbrev Out := Host.Outcome State Fault Refusal

/-- `block_header()` (42_block_state_machine.md R111) and the dispatch on `btype` (R112, R110). -/
def State.header (s : State) (final : Bool) (btype : BitVec 2) (next : BlockState) : State :=
  { s with bfinal := final, btype := btype, state := next, part := .first }

/-- `BLOCK final=f STORED`: R113 runs next. -/
def execBlockStored (final : Bool) (s : State) : Out := .next (s.header final 0#2 .stHdr)

/-- `BLOCK final=f FIXED`: R114 runs next. -/
def execBlockFixed (final : Bool) (s : State) : Out := .next (s.header final 1#2 .fxSetup)

/-- `BLOCK final=f DYNAMIC`: R115 runs next. -/
def execBlockDynamic (final : Bool) (s : State) : Out := .next (s.header final 2#2 .dyCounts)

/-- `BLOCK final=f RESERVED`: `raise IllegalBlockFormat` whatever `bfinal` is
(42_block_state_machine.md R126; 60_exceptions.md R164). -/
def execBlockReserved (final : Bool) (s : State) : Out :=
  .next ((s.header final 3#2 .blkHdr).raise .illegalBlockFormat)

end Sys2Proof.Machine
end

