-- ==== Sys2Proof/Machine/Operands.lean ====
section
/-! DEFINITION. Operand assembly (30_encoding.md R75): base plus raw field, unsigned, in the width of
the register that takes it (43_lz77_symbols.md R141). -/

namespace Sys2Proof.Machine

/-- `length = LEN_BASE[s-257] + x` (30_encoding.md R75; 43_lz77_symbols.md R133). -/
def lengthOf (s x : Nat) : BitVec 9 := BitVec.ofNat 9 (entry lenBase (s - 257) + x)

/-- `dist = DIST_BASE[d] + y` (30_encoding.md R75; 43_lz77_symbols.md R134). -/
def distOf (d y : Nat) : BitVec 16 := BitVec.ofNat 16 (entry distBase d + y)

/-- `rep = base + x`, base 3 or 11 (30_encoding.md R75; 42_block_state_machine.md R120 to R122). -/
def repOf (base x : Nat) : BitVec 8 := BitVec.ofNat 8 (base + x)

/-- `total = hlit + hdist + 258` (42_block_state_machine.md R115). -/
def totalOf (hlit hdist : BitVec 5) : BitVec 9 := BitVec.ofNat 9 (hlit.toNat + hdist.toNat + 258)

/-- The previous bit length, `lens[idx - 1]` (42_block_state_machine.md R120). -/
def State.prevLen (s : State) : BitVec 4 := s.lens.getD (s.idx.toNat - 1) 0#4

end Sys2Proof.Machine
end

