-- ==== Sys2Proof/Machine/Distances.lean ====
section
/-! DEFINITION. The DIST elements (43_lz77_symbols.md R134, R139): `dist <- DIST_BASE[d] + y`, the
distance check, and the start of the copy (R135). -/

namespace Sys2Proof.Machine

/-- `DIST d y`: the copy distance, DistanceTooFar when it passes the start of the output (R139),
otherwise the copy of `length` bytes begins (R135). -/
def State.takeDist (s : State) (dsym y : Nat) : State :=
  let s := { s with dsym := BitVec.ofNat 5 dsym, dist := distOf dsym y }
  if s.outLen < s.dist.toNat then s.raise .distanceTooFar
  else { s with copyRem := s.length, state := .copy }

/-- `DIST 0` (R134, R71). -/
def execDist0 (s : State) : Out := .next (s.takeDist 0 0)

/-- `DIST 1` (R134, R71). -/
def execDist1 (s : State) : Out := .next (s.takeDist 1 0)

/-- `DIST 2` (R134, R71). -/
def execDist2 (s : State) : Out := .next (s.takeDist 2 0)

/-- `DIST 3` (R134, R71). -/
def execDist3 (s : State) : Out := .next (s.takeDist 3 0)

/-- `DIST 4` (R134, R71). -/
def execDist4 (y : BitVec 1) (s : State) : Out := .next (s.takeDist 4 y.toNat)

/-- `DIST 5` (R134, R71). -/
def execDist5 (y : BitVec 1) (s : State) : Out := .next (s.takeDist 5 y.toNat)

/-- `DIST 6` (R134, R71). -/
def execDist6 (y : BitVec 2) (s : State) : Out := .next (s.takeDist 6 y.toNat)

/-- `DIST 7` (R134, R71). -/
def execDist7 (y : BitVec 2) (s : State) : Out := .next (s.takeDist 7 y.toNat)

/-- `DIST 8` (R134, R71). -/
def execDist8 (y : BitVec 3) (s : State) : Out := .next (s.takeDist 8 y.toNat)

/-- `DIST 9` (R134, R71). -/
def execDist9 (y : BitVec 3) (s : State) : Out := .next (s.takeDist 9 y.toNat)

/-- `DIST 10` (R134, R71). -/
def execDist10 (y : BitVec 4) (s : State) : Out := .next (s.takeDist 10 y.toNat)

/-- `DIST 11` (R134, R71). -/
def execDist11 (y : BitVec 4) (s : State) : Out := .next (s.takeDist 11 y.toNat)

/-- `DIST 12` (R134, R71). -/
def execDist12 (y : BitVec 5) (s : State) : Out := .next (s.takeDist 12 y.toNat)

/-- `DIST 13` (R134, R71). -/
def execDist13 (y : BitVec 5) (s : State) : Out := .next (s.takeDist 13 y.toNat)

/-- `DIST 14` (R134, R71). -/
def execDist14 (y : BitVec 6) (s : State) : Out := .next (s.takeDist 14 y.toNat)

/-- `DIST 15` (R134, R71). -/
def execDist15 (y : BitVec 6) (s : State) : Out := .next (s.takeDist 15 y.toNat)

/-- `DIST 16` (R134, R71). -/
def execDist16 (y : BitVec 7) (s : State) : Out := .next (s.takeDist 16 y.toNat)

/-- `DIST 17` (R134, R71). -/
def execDist17 (y : BitVec 7) (s : State) : Out := .next (s.takeDist 17 y.toNat)

/-- `DIST 18` (R134, R71). -/
def execDist18 (y : BitVec 8) (s : State) : Out := .next (s.takeDist 18 y.toNat)

/-- `DIST 19` (R134, R71). -/
def execDist19 (y : BitVec 8) (s : State) : Out := .next (s.takeDist 19 y.toNat)

/-- `DIST 20` (R134, R71). -/
def execDist20 (y : BitVec 9) (s : State) : Out := .next (s.takeDist 20 y.toNat)

/-- `DIST 21` (R134, R71). -/
def execDist21 (y : BitVec 9) (s : State) : Out := .next (s.takeDist 21 y.toNat)

/-- `DIST 22` (R134, R71). -/
def execDist22 (y : BitVec 10) (s : State) : Out := .next (s.takeDist 22 y.toNat)

/-- `DIST 23` (R134, R71). -/
def execDist23 (y : BitVec 10) (s : State) : Out := .next (s.takeDist 23 y.toNat)

/-- `DIST 24` (R134, R71). -/
def execDist24 (y : BitVec 11) (s : State) : Out := .next (s.takeDist 24 y.toNat)

/-- `DIST 25` (R134, R71). -/
def execDist25 (y : BitVec 11) (s : State) : Out := .next (s.takeDist 25 y.toNat)

/-- `DIST 26` (R134, R71). -/
def execDist26 (y : BitVec 12) (s : State) : Out := .next (s.takeDist 26 y.toNat)

/-- `DIST 27` (R134, R71). -/
def execDist27 (y : BitVec 12) (s : State) : Out := .next (s.takeDist 27 y.toNat)

/-- `DIST 28` (R134, R71). -/
def execDist28 (y : BitVec 13) (s : State) : Out := .next (s.takeDist 28 y.toNat)

/-- `DIST 29` (R134, R71). -/
def execDist29 (y : BitVec 13) (s : State) : Out := .next (s.takeDist 29 y.toNat)

end Sys2Proof.Machine
end

