-- ==== Sys2Proof/Machine/Dynamic.lean ====
section
/-! DEFINITION. The elements of a dynamic block's header (42_block_state_machine.md R115, R116, R119 to
R122). -/

namespace Sys2Proof.Machine

/-- `HLIT`: `hlit <- v` (R115). -/
def execHlit (v : BitVec 5) (s : State) : Out := .next { s with hlit := v, part := .second }

/-- `HDIST`: `hdist <- v` (R115). -/
def execHdist (v : BitVec 5) (s : State) : Out := .next { s with hdist := v, part := .third }

/-- `HCLEN`: `hclen <- v`, and `total <- hlit + hdist + 258` (R115). No value is rejected. -/
def execHclen (v : BitVec 4) (s : State) : Out :=
  .next { s with hclen := v, total := totalOf s.hlit s.hdist, state := .dyClen, part := .first }

/-- `CLLEN`: `cl_len` cleared, then the lengths placed by `CL_PERM` (R116), all of it once every length
is read. An InputUnderrun inside the lengths leaves `cl_len` as it was, where R116's pseudocode has
cleared it and placed the lengths read so far; 60_exceptions.md R175 lets a model discard that (DESIGN
CHOICE, notes/assumptions/10.md, safe). -/
def execCllen (vs : List (BitVec 3)) (s : State) : Out :=
  .next { s with clLen := permute clPerm vs (List.replicate 19 0#3), state := .dyCltree }

/-- `CL n`: `lens[idx] <- n ; idx <- idx + 1` (R119). -/
def execCl (n : BitVec 4) (s : State) : Out :=
  .next { s with lens := s.lens.set s.idx.toNat n, idx := s.idx + 1#9 }

/-- `CL16`: the previous bit length 3 to 6 times (R120); RepeatWithoutPrevious when there is none. -/
def execCl16 (r : BitVec 2) (s : State) : Out :=
  .next
    (if s.idx = 0#9 then s.raise .repeatWithoutPrevious
     else s.repeatLen s.prevLen (repOf 3 r.toNat))

/-- `CL17`: bit length 0, 3 to 10 times (R121). -/
def execCl17 (r : BitVec 3) (s : State) : Out := .next (s.repeatLen 0#4 (repOf 3 r.toNat))

/-- `CL18`: bit length 0, 11 to 138 times (R122). -/
def execCl18 (r : BitVec 7) (s : State) : Out := .next (s.repeatLen 0#4 (repOf 11 r.toNat))

end Sys2Proof.Machine
end

