-- ==== Sys2Proof/Machine/Envelope.lean ====
section
/-! DEFINITION. The zlib envelope, `zlib_window()` of 44_stream_and_wrapper.md R150 taken element by
element (DESIGN CHOICE, notes/assumptions/11.md, safe): the header chooses, the dictionary id is
skipped, the checksum is stripped. Nothing else of the envelope is examined (R151). -/

namespace Sys2Proof.Machine

/-- `ZHDR b0 b1`: InputUnderrun when `IN_LEN < 2`; otherwise the window starts after the header, and
after the dictionary id too when bit 5 of `b1` is 1. -/
def execZhdr (_b0 b1 : Byte) (s : State) : Out :=
  .next
    (if s.inLen < 2 then s.raise .inputUnderrun
     else
       { s with
         byteCursor := 2, bitCursor := 0#3, limit := s.inLen,
         part := if b1.getLsbD 5 then .second else .third })

/-- `DICTID`: four bytes skipped unread; InputUnderrun when they are not there. -/
def execDictid (s : State) : Out :=
  .next
    (if s.limit < s.byteCursor + 4 then s.raise .inputUnderrun
     else { s with byteCursor := s.byteCursor + 4, part := .third })

/-- `ADLER`: the last four bytes stripped, never read; InputUnderrun when `IN_LEN < start + 4`. The
window is then `[start, IN_LEN - 4)` and the stream begins. -/
def execAdler (s : State) : Out :=
  .next
    (if s.inLen < s.byteCursor + 4 then s.raise .inputUnderrun
     else
       { s with bitCursor := 0#3, limit := s.inLen - 4, state := .blkHdr, part := .first })

end Sys2Proof.Machine
end

