-- ==== Sys2Proof/Machine/HostCommands.lean ====
section
/-! DEFINITION. The host's commands (44_stream_and_wrapper.md R147; 70_reset_and_hazards.md R185). -/

namespace Sys2Proof.Machine

/-- `START` with the MODE of the same write (10_state.md R16). `MODE` is written in any case; while BUSY
the START itself is ignored (R147; 70_reset_and_hazards.md R189); a launch with `IN_LEN > IN_CAP` is
refused (10_state.md R17). -/
def execStart (mode : Mode) (s : State) : Out :=
  if s.busy then .next { s with mode := mode }
  else if s.par.inCap < s.inLen then .refused .launchAboveInCap
  else .next ({ s with mode := mode } : State).begin

/-- `RESET`: the reset state, in any state, a running call being abandoned (R185). -/
def execReset (s : State) : Out := .next s.toReset

end Sys2Proof.Machine
end

