-- ==== Sys2Proof/Machine/Lengths.lean ====
section
/-! DEFINITION. The LENGTH elements (43_lz77_symbols.md R133): `length <- LEN_BASE[s-257] + x`. -/

namespace Sys2Proof.Machine

/-- `LENGTH s x`: the copy length; the distance comes next (R133, R110). -/
def State.takeLength (s : State) (sym x : Nat) : State :=
  { s with sym := BitVec.ofNat 9 sym, length := lengthOf sym x, state := .distSym }

/-- `LENGTH 257` (R133, R70). -/
def execLength257 (s : State) : Out := .next (s.takeLength 257 0)

/-- `LENGTH 258` (R133, R70). -/
def execLength258 (s : State) : Out := .next (s.takeLength 258 0)

/-- `LENGTH 259` (R133, R70). -/
def execLength259 (s : State) : Out := .next (s.takeLength 259 0)

/-- `LENGTH 260` (R133, R70). -/
def execLength260 (s : State) : Out := .next (s.takeLength 260 0)

/-- `LENGTH 261` (R133, R70). -/
def execLength261 (s : State) : Out := .next (s.takeLength 261 0)

/-- `LENGTH 262` (R133, R70). -/
def execLength262 (s : State) : Out := .next (s.takeLength 262 0)

/-- `LENGTH 263` (R133, R70). -/
def execLength263 (s : State) : Out := .next (s.takeLength 263 0)

/-- `LENGTH 264` (R133, R70). -/
def execLength264 (s : State) : Out := .next (s.takeLength 264 0)

/-- `LENGTH 265` (R133, R70). -/
def execLength265 (x : BitVec 1) (s : State) : Out := .next (s.takeLength 265 x.toNat)

/-- `LENGTH 266` (R133, R70). -/
def execLength266 (x : BitVec 1) (s : State) : Out := .next (s.takeLength 266 x.toNat)

/-- `LENGTH 267` (R133, R70). -/
def execLength267 (x : BitVec 1) (s : State) : Out := .next (s.takeLength 267 x.toNat)

/-- `LENGTH 268` (R133, R70). -/
def execLength268 (x : BitVec 1) (s : State) : Out := .next (s.takeLength 268 x.toNat)

/-- `LENGTH 269` (R133, R70). -/
def execLength269 (x : BitVec 2) (s : State) : Out := .next (s.takeLength 269 x.toNat)

/-- `LENGTH 270` (R133, R70). -/
def execLength270 (x : BitVec 2) (s : State) : Out := .next (s.takeLength 270 x.toNat)

/-- `LENGTH 271` (R133, R70). -/
def execLength271 (x : BitVec 2) (s : State) : Out := .next (s.takeLength 271 x.toNat)

/-- `LENGTH 272` (R133, R70). -/
def execLength272 (x : BitVec 2) (s : State) : Out := .next (s.takeLength 272 x.toNat)

/-- `LENGTH 273` (R133, R70). -/
def execLength273 (x : BitVec 3) (s : State) : Out := .next (s.takeLength 273 x.toNat)

/-- `LENGTH 274` (R133, R70). -/
def execLength274 (x : BitVec 3) (s : State) : Out := .next (s.takeLength 274 x.toNat)

/-- `LENGTH 275` (R133, R70). -/
def execLength275 (x : BitVec 3) (s : State) : Out := .next (s.takeLength 275 x.toNat)

/-- `LENGTH 276` (R133, R70). -/
def execLength276 (x : BitVec 3) (s : State) : Out := .next (s.takeLength 276 x.toNat)

/-- `LENGTH 277` (R133, R70). -/
def execLength277 (x : BitVec 4) (s : State) : Out := .next (s.takeLength 277 x.toNat)

/-- `LENGTH 278` (R133, R70). -/
def execLength278 (x : BitVec 4) (s : State) : Out := .next (s.takeLength 278 x.toNat)

/-- `LENGTH 279` (R133, R70). -/
def execLength279 (x : BitVec 4) (s : State) : Out := .next (s.takeLength 279 x.toNat)

/-- `LENGTH 280` (R133, R70). -/
def execLength280 (x : BitVec 4) (s : State) : Out := .next (s.takeLength 280 x.toNat)

/-- `LENGTH 281` (R133, R70). -/
def execLength281 (x : BitVec 5) (s : State) : Out := .next (s.takeLength 281 x.toNat)

/-- `LENGTH 282` (R133, R70). -/
def execLength282 (x : BitVec 5) (s : State) : Out := .next (s.takeLength 282 x.toNat)

/-- `LENGTH 283` (R133, R70). -/
def execLength283 (x : BitVec 5) (s : State) : Out := .next (s.takeLength 283 x.toNat)

/-- `LENGTH 284` (R133, R70). -/
def execLength284 (x : BitVec 5) (s : State) : Out := .next (s.takeLength 284 x.toNat)

/-- `LENGTH 285` (R133, R70). -/
def execLength285 (s : State) : Out := .next (s.takeLength 285 0)

end Sys2Proof.Machine
end

