-- ==== Sys2Proof/Machine/Stored.lean ====
section
/-! DEFINITION. The elements of a stored block's body (42_block_state_machine.md R113). -/

namespace Sys2Proof.Machine

/-- `PAD`: to the next byte boundary (40_bit_reader.md R93); the bits are not examined. -/
def execPad (s : State) : Out := .next { s.withReader s.reader.align with part := .second }

/-- `LEN16 n`: `st_len <- n`. -/
def execLen16 (n : BitVec 16) (s : State) : Out := .next { s with stLen := n, part := .third }

/-- `NLEN16 n`: `st_nlen <- n`; UncompressedLengthMismatch unless it is the complement of LEN
(60_exceptions.md R165); otherwise `st_rem <- st_len` and the copy begins. -/
def execNlen16 (n : BitVec 16) (s : State) : Out :=
  .next
    (let s := { s with stNlen := n }
     if n ≠ s.stLen ^^^ 0xFFFF#16 then s.raise .uncompressedLengthMismatch
     else { s with stRem := s.stLen, state := .stCopy, part := .first })

/-- `BYTE x`: `OutAppend(x)`, then `st_rem <- st_rem - 1`. -/
def execByte (x : Byte) (s : State) : Out :=
  .next (s.outAppend x fun s => { s with stRem := s.stRem - 1#16 })

end Sys2Proof.Machine
end

