-- ==== Sys2Proof/Machine/Symbols.lean ====
section
/-! DEFINITION. The elements of the item loop that are no length or distance (43_lz77_symbols.md R131,
R132, R136, R137). -/

namespace Sys2Proof.Machine

/-- `LIT x`: `OutAppend(x)` (R131). -/
def execLit (x : Byte) (s : State) : Out :=
  .next (({ s with sym := x.setWidth 9 } : State).outAppend x id)

/-- `EOB`: the loop ends and the block has finished (R132). -/
def execEob (s : State) : Out := .next { s with sym := 256#9, state := .blkEnd }

/-- `LLSYM 286`: `raise TreeError` (R136). -/
def execLlsym286 (s : State) : Out := .next (({ s with sym := 286#9 } : State).raise .treeError)

/-- `LLSYM 287`: `raise TreeError` (R136). -/
def execLlsym287 (s : State) : Out := .next (({ s with sym := 287#9 } : State).raise .treeError)

/-- `DSYM 30`: `raise TreeError` (R137). -/
def execDsym30 (s : State) : Out := .next (({ s with dsym := 30#5 } : State).raise .treeError)

/-- `DSYM 31`: `raise TreeError` (R137). -/
def execDsym31 (s : State) : Out := .next (({ s with dsym := 31#5 } : State).raise .treeError)

end Sys2Proof.Machine
end

