-- ==== Sys2Proof/Machine/Dispatch.lean ====
section
/-! DEFINITION. One arm per instruction, each one direct call of its meaning. -/

namespace Sys2Proof.Machine

def exec (i : Instr) (s : State) : Host.Outcome State Fault Refusal :=
  match i with
  | .blockStored f => Sys2Proof.Machine.execBlockStored f s
  | .blockFixed f => Sys2Proof.Machine.execBlockFixed f s
  | .blockDynamic f => Sys2Proof.Machine.execBlockDynamic f s
  | .blockReserved f => Sys2Proof.Machine.execBlockReserved f s
  | .pad => Sys2Proof.Machine.execPad s
  | .len16 n => Sys2Proof.Machine.execLen16 n s
  | .nlen16 n => Sys2Proof.Machine.execNlen16 n s
  | .byte x => Sys2Proof.Machine.execByte x s
  | .hlit v => Sys2Proof.Machine.execHlit v s
  | .hdist v => Sys2Proof.Machine.execHdist v s
  | .hclen v => Sys2Proof.Machine.execHclen v s
  | .cllen vs => Sys2Proof.Machine.execCllen vs s
  | .cl n => Sys2Proof.Machine.execCl n s
  | .cl16 r => Sys2Proof.Machine.execCl16 r s
  | .cl17 r => Sys2Proof.Machine.execCl17 r s
  | .cl18 r => Sys2Proof.Machine.execCl18 r s
  | .lit x => Sys2Proof.Machine.execLit x s
  | .eob => Sys2Proof.Machine.execEob s
  | .length257 => Sys2Proof.Machine.execLength257 s
  | .length258 => Sys2Proof.Machine.execLength258 s
  | .length259 => Sys2Proof.Machine.execLength259 s
  | .length260 => Sys2Proof.Machine.execLength260 s
  | .length261 => Sys2Proof.Machine.execLength261 s
  | .length262 => Sys2Proof.Machine.execLength262 s
  | .length263 => Sys2Proof.Machine.execLength263 s
  | .length264 => Sys2Proof.Machine.execLength264 s
  | .length265 x => Sys2Proof.Machine.execLength265 x s
  | .length266 x => Sys2Proof.Machine.execLength266 x s
  | .length267 x => Sys2Proof.Machine.execLength267 x s
  | .length268 x => Sys2Proof.Machine.execLength268 x s
  | .length269 x => Sys2Proof.Machine.execLength269 x s
  | .length270 x => Sys2Proof.Machine.execLength270 x s
  | .length271 x => Sys2Proof.Machine.execLength271 x s
  | .length272 x => Sys2Proof.Machine.execLength272 x s
  | .length273 x => Sys2Proof.Machine.execLength273 x s
  | .length274 x => Sys2Proof.Machine.execLength274 x s
  | .length275 x => Sys2Proof.Machine.execLength275 x s
  | .length276 x => Sys2Proof.Machine.execLength276 x s
  | .length277 x => Sys2Proof.Machine.execLength277 x s
  | .length278 x => Sys2Proof.Machine.execLength278 x s
  | .length279 x => Sys2Proof.Machine.execLength279 x s
  | .length280 x => Sys2Proof.Machine.execLength280 x s
  | .length281 x => Sys2Proof.Machine.execLength281 x s
  | .length282 x => Sys2Proof.Machine.execLength282 x s
  | .length283 x => Sys2Proof.Machine.execLength283 x s
  | .length284 x => Sys2Proof.Machine.execLength284 x s
  | .length285 => Sys2Proof.Machine.execLength285 s
  | .dist0 => Sys2Proof.Machine.execDist0 s
  | .dist1 => Sys2Proof.Machine.execDist1 s
  | .dist2 => Sys2Proof.Machine.execDist2 s
  | .dist3 => Sys2Proof.Machine.execDist3 s
  | .dist4 y => Sys2Proof.Machine.execDist4 y s
  | .dist5 y => Sys2Proof.Machine.execDist5 y s
  | .dist6 y => Sys2Proof.Machine.execDist6 y s
  | .dist7 y => Sys2Proof.Machine.execDist7 y s
  | .dist8 y => Sys2Proof.Machine.execDist8 y s
  | .dist9 y => Sys2Proof.Machine.execDist9 y s
  | .dist10 y => Sys2Proof.Machine.execDist10 y s
  | .dist11 y => Sys2Proof.Machine.execDist11 y s
  | .dist12 y => Sys2Proof.Machine.execDist12 y s
  | .dist13 y => Sys2Proof.Machine.execDist13 y s
  | .dist14 y => Sys2Proof.Machine.execDist14 y s
  | .dist15 y => Sys2Proof.Machine.execDist15 y s
  | .dist16 y => Sys2Proof.Machine.execDist16 y s
  | .dist17 y => Sys2Proof.Machine.execDist17 y s
  | .dist18 y => Sys2Proof.Machine.execDist18 y s
  | .dist19 y => Sys2Proof.Machine.execDist19 y s
  | .dist20 y => Sys2Proof.Machine.execDist20 y s
  | .dist21 y => Sys2Proof.Machine.execDist21 y s
  | .dist22 y => Sys2Proof.Machine.execDist22 y s
  | .dist23 y => Sys2Proof.Machine.execDist23 y s
  | .dist24 y => Sys2Proof.Machine.execDist24 y s
  | .dist25 y => Sys2Proof.Machine.execDist25 y s
  | .dist26 y => Sys2Proof.Machine.execDist26 y s
  | .dist27 y => Sys2Proof.Machine.execDist27 y s
  | .dist28 y => Sys2Proof.Machine.execDist28 y s
  | .dist29 y => Sys2Proof.Machine.execDist29 y s
  | .llsym286 => Sys2Proof.Machine.execLlsym286 s
  | .llsym287 => Sys2Proof.Machine.execLlsym287 s
  | .dsym30 => Sys2Proof.Machine.execDsym30 s
  | .dsym31 => Sys2Proof.Machine.execDsym31 s
  | .zhdr b0 b1 => Sys2Proof.Machine.execZhdr b0 b1 s
  | .dictid => Sys2Proof.Machine.execDictid s
  | .adler => Sys2Proof.Machine.execAdler s
  | .start m => Sys2Proof.Machine.execStart m s
  | .reset => Sys2Proof.Machine.execReset s

end Sys2Proof.Machine
end

