-- ==== Sys2Proof/Machine/HostPort.lean ====
section
/-! DEFINITION. The host's accesses other than the two commands (10_state.md R16 to R20;
44_stream_and_wrapper.md R155; 70_reset_and_hazards.md R189). -/

namespace Sys2Proof.Machine

/-- A read that returns `v`. -/
def State.answer (s : State) (v : Nat) : State := { s with hostData := v }

/-- A read whose value the spec leaves unspecified: a free value of `w` bits
(93_implementation_defined.md U21; notes/assumptions/5.md). -/
def State.answerFree (s : State) (w : Nat) : State :=
  { s with hostData := Config.freeValue s.free % 2 ^ w, free := s.free + 1 }

/-- A write of `CTRL` with bit 0 = 0: MODE takes bit 1, nothing starts (10_state.md R16). -/
def hostWriteMode (v : BitVec 32) (s : State) : Out :=
  .next { s with mode := if v.getLsbD 1 then .zlib else .raw }

/-- A write of `IN_LEN` (10_state.md R17): the register takes its `W_IN` bits. -/
def hostWriteInLen (n : Nat) (s : State) : Out :=
  if s.busy then .refused .hostWriteWhileBusy else .next { s with inLen := n % 2 ^ s.par.wIn }

/-- A write of a byte of `IN` (20_memory.md R41). -/
def hostWriteIn (a : Nat) (v : Byte) (s : State) : Out :=
  if s.busy then .refused .hostWriteWhileBusy
  else if s.par.inCap ≤ a then .fault (.hostAddress a)
  else .next { s with inMem := s.inMem.write a v }

/-- A write of a byte of `OUT` (20_memory.md R52; notes/assumptions/13.md). -/
def hostWriteOut (a : Nat) (v : Byte) (s : State) : Out :=
  if s.busy then .refused .hostWriteWhileBusy
  else if s.par.outCap ≤ a then .fault (.hostAddress a)
  else .next { s with outMem := s.outMem.write a v }

/-- A read of a register (10_state.md R16 to R20). `ERR` while BUSY and `OUT_LEN` while BUSY or after
ERROR are not to be relied on: a free value. -/
def hostReadReg (r : HostReg) (s : State) : Out :=
  .next
    (match r with
     | .ctrl => s.answer s.readCtrl
     | .inLen => s.answer s.inLen
     | .status => s.answer s.readStatus
     | .err => if s.busy then s.answerFree 4 else s.answer s.err.toNat
     | .outLen =>
       if s.busy || s.run == .error then s.answerFree s.par.wOut else s.answer s.outLen)

/-- A read of a byte of `OUT`: the result after DONE, otherwise unspecified (10_state.md R20;
93_implementation_defined.md U21). -/
def hostReadOut (a : Nat) (s : State) : Out :=
  if s.par.outCap ≤ a then .fault (.hostAddress a)
  else if s.run = .done ∧ a < s.outLen then .next (s.answer (s.outMem.read a).toNat)
  else .next (s.answerFree 8)

end Sys2Proof.Machine
end

