-- ==== Sys2Proof/Machine/Rows.lean ====
section
/-! DEFINITION. The rows of 42_block_state_machine.md R110 that read no element of the stream. -/

namespace Sys2Proof.Machine

/-- ST_COPY with `st_rem = 0`. -/
def rowStoredEnd (s : State) : State := { s with state := .blkEnd }

/-- FX_SETUP (42_block_state_machine.md R114): the two fixed trees, built by `build_tree`. -/
def rowFixedSetup (s : State) : State :=
  { (s.withScratch (buildTree fixedDLen)) with llt := fixedLlTree, dt := fixedDTree, state := .sym }

/-- DY_CLTREE (42_block_state_machine.md R117), and `idx <- 0` of R118. -/
def rowClTree (s : State) : State :=
  let b := buildTree (s.clLen.map BitVec.toNat)
  { (s.withScratch b) with clt := b.tree, idx := 0#9, state := .dyLens }

/-- DY_LENS with `idx = total`. -/
def rowLensEnd (s : State) : State := { s with state := .dyTrees }

/-- DY_TREES (42_block_state_machine.md R124). -/
def rowTrees (s : State) : State :=
  let b := buildTree s.dLens
  { (s.withScratch b) with llt := (buildTree s.llLens).tree, dt := b.tree, state := .sym }

/-- SYM with a symbol of 257 to 285: the extra bits come next (R110, 43_lz77_symbols.md R130). -/
def rowLengthSymbol (sym : BitVec 9) (s : State) : State := { s with sym := sym, state := .lenX }

/-- DIST_SYM with a symbol of 0 to 29: the extra bits come next (R110, 43_lz77_symbols.md R134). -/
def rowDistSymbol (sym : BitVec 9) (s : State) : State :=
  { s with dsym := sym.setWidth 5, state := .distX }

/-- COPY (43_lz77_symbols.md R135): one byte from `OUT[out_len - dist]`, or back to SYM when none
remains. A read at an address that is not below `out_len` is not defined (00_scope.md R7). -/
def rowCopy (s : State) : Out :=
  if s.copyRem = 0#9 then .next { s with state := .sym }
  else if s.dist.toNat = 0 ∨ s.outLen < s.dist.toNat then .fault .outRead
  else
    .next
      (s.outAppend (s.outMem.read (s.outLen - s.dist.toNat)) fun s =>
        { s with copyRem := s.copyRem - 1#9 })

/-- BLK_END (42_block_state_machine.md R125, 44_stream_and_wrapper.md R152). -/
def rowBlockEnd (s : State) : State :=
  { s with blocks := s.blocks + 1, state := if s.bfinal then .done else .blkHdr }

end Sys2Proof.Machine
end

