-- ==== Sys2Proof/Machine/Fetch.lean ====
section
/-! DEFINITION. What the next step does: the host's next access if there is one, otherwise the row of
42_block_state_machine.md R110 the block is in, with the element it reads from the stream. -/

namespace Sys2Proof.Machine

/-- What a step has before it. -/
inductive Fetch where
  /-- An instruction to execute, in the state with the cursor past what was read. -/
  | elem (i : Instr) (s : State)
  /-- A row or a host access that is no instruction, with its outcome. -/
  | row (o : Out)
  /-- Reading the stream raises a fault of the block in the state given. -/
  | raised (k : ErrKind) (s : State)
deriving Repr

/-- A read of the stream as a fetch in state `s`. Where the read raises, the cursor stands where it left
it and the element has written nothing; where its pseudocode writes before the raise (the block header,
the code-length lengths) that is the model's choice (DESIGN CHOICE, notes/assumptions/10.md, safe). -/
def Fetch.ofRead (s : State) : Read Instr → Fetch
  | .ok i r => .elem i (s.withReader r)
  | .raise k r => .raised k (s.withReader r)

/-- The stream is only read through a window inside the valid input (00_scope.md R7). -/
def guardIn (s : State) (f : Fetch) : Fetch := if s.inReadable then f else .row (.fault .inRead)

/-- The element the block expects, read at the cursor. -/
def fetchElem (e : Expect) (s : State) : Fetch := guardIn s (.ofRead s (decode e s.reader))

/-- The envelope (44_stream_and_wrapper.md R150): the header is read when the input holds it; the
dictionary id and the checksum are not read. -/
def fetchEnvelope (s : State) : Fetch :=
  match s.part with
  | .first =>
    if s.par.inCap < s.inLen then .row (.fault .inRead)
    else if s.inLen < 2 then .raised .inputUnderrun s
    else .elem (decodeEnvelope s.inMem) s
  | .second => .elem .dictid s
  | .third => .elem .adler s

/-- BLK_HDR: the cap test before a header is read (44_stream_and_wrapper.md R149). -/
def fetchHeader (s : State) : Fetch :=
  if s.blocks = s.par.blockCap then .raised .missingFinalBlock s else fetchElem .header s

/-- ST_HDR (42_block_state_machine.md R113, first part). -/
def fetchStoredHeader (s : State) : Fetch :=
  match s.part with
  | .first => fetchElem .pad s
  | .second => fetchElem .len16 s
  | .third => fetchElem .nlen16 s

/-- DY_COUNTS (42_block_state_machine.md R115). -/
def fetchCounts (s : State) : Fetch :=
  match s.part with
  | .first => fetchElem .hlit s
  | .second => fetchElem .hdist s
  | .third => fetchElem .hclen s

/-- SYM (43_lz77_symbols.md R130): a length symbol goes on to its extra bits, any other symbol is an
element by itself. -/
def fetchSymbol (s : State) : Fetch :=
  guardIn s
    (match s.llt.decodeSymbol s.reader with
     | .raise k r => .raised k (s.withReader r)
     | .ok sym r =>
       if isLength sym.toNat then .row (.next (rowLengthSymbol sym (s.withReader r)))
       else .ofRead s (llElement sym.toNat r))

/-- DIST_SYM (43_lz77_symbols.md R134, first part): a symbol of 0 to 29 goes on to its extra bits. -/
def fetchDistSymbol (s : State) : Fetch :=
  guardIn s
    (match s.dt.decodeSymbol s.reader with
     | .raise k r => .raised k (s.withReader r)
     | .ok sym r =>
       if sym.toNat ≤ 29 then .row (.next (rowDistSymbol sym (s.withReader r)))
       else .ofRead s (dElement sym.toNat r))

/-- The block's next step (42_block_state_machine.md R110). IDLE, DONE and ERROR rest. -/
def fetchBlock (s : State) : Fetch :=
  match s.state with
  | .idle => .row (.next s)
  | .zhdr => fetchEnvelope s
  | .blkHdr => fetchHeader s
  | .stHdr => fetchStoredHeader s
  | .stCopy => if s.stRem = 0#16 then .row (.next (rowStoredEnd s)) else fetchElem .byte s
  | .fxSetup => .row (.next (rowFixedSetup s))
  | .dyCounts => fetchCounts s
  | .dyClen => fetchElem (.cllen (s.hclen.toNat + 4)) s
  | .dyCltree => .row (.next (rowClTree s))
  | .dyLens =>
    if s.idx.toNat < s.total.toNat then fetchElem (.clSym s.clt (s.idx == 0#9)) s
    else .row (.next (rowLensEnd s))
  | .dyTrees => .row (.next (rowTrees s))
  | .sym => fetchSymbol s
  | .lenX => fetchElem (.lenX s.sym.toNat) s
  | .distSym => fetchDistSymbol s
  | .distX => fetchElem (.distX s.dsym.toNat) s
  | .copy => .row (rowCopy s)
  | .blkEnd => .row (.next (rowBlockEnd s))
  | .done => .row (.next s)
  | .error => .row (.next s)

/-- One access of the host (44_stream_and_wrapper.md R155); `run` leaves the step to the block. -/
def fetchHost (op : HostOp) (s : State) : Fetch :=
  match op with
  | .run => fetchBlock s
  | .writeCtrl v =>
    match decodeCtrl v with
    | some i => .elem i s
    | none => .row (hostWriteMode v s)
  | .writeInLen n => .row (hostWriteInLen n s)
  | .writeIn a v => .row (hostWriteIn a v s)
  | .writeOut a v => .row (hostWriteOut a v s)
  | .readReg r => .row (hostReadReg r s)
  | .readOut a => .row (hostReadOut a s)
  | .assertReset => .elem .reset s

/-- The next step: the oldest access of the host, or the block's own step when none is pending. -/
def fetch (s : State) : Fetch :=
  match s.host with
  | [] => fetchBlock s
  | op :: ops => fetchHost op { s with host := ops }

end Sys2Proof.Machine
end

