-- ==== Sys2Proof/Machine/Step.lean ====
section
/-! DEFINITION. One step of the machine, and where an instruction stands for the next one. -/

namespace Sys2Proof.Machine

/-- One step: the instruction fetched is executed, a row or a host access has its outcome, and a fault
of the block is taken (60_exceptions.md R163). -/
def step (s : State) : Host.Outcome State Fault Refusal :=
  match fetch s with
  | .elem i s => exec i s
  | .row o => o
  | .raised k s => .next (s.raise k)

/-- The bytes `bs` at the start of IN and of the window, with no access of the host pending. -/
def State.withInput (s : State) (bs : List Byte) : State :=
  { s with
    inMem := Mem.load s.inMem 0 bs, inLen := bs.length, limit := bs.length, byteCursor := 0,
    bitCursor := 0#3, host := [] }

/-- `s` with a word of the opcode table where the next step takes its instruction
(notes/assumptions/15.md): the host's queue for a CTRL write; the start of IN for an element, the block
in the state that expects it. A LENGTH or DIST element is executed in the step that reads its extra
bits (R110), so its code is read already: the symbol register holds its symbol. -/
def State.withFetchWord (s : State) (nbits w : Nat) : State :=
  let t := s.withInput (tableBytes nbits w)
  match tableClass nbits w with
  | .host => { s with host := HostOp.writeCtrl (BitVec.ofNat 32 w) :: s.host }
  | .header => { t with state := .blkHdr, blocks := if s.par.blockCap = 0 then 1 else 0 }
  | .litLen =>
    match fixedLlRom.decodeSymbol t.reader with
    | .raise _ _ => { t with state := .sym, llt := fixedLlRom }
    | .ok sym r =>
      if isLength sym.toNat then { t.withReader r with state := .lenX, sym := sym }
      else { t with state := .sym, llt := fixedLlRom }
  | .distance =>
    match fixedDTree.decodeSymbol t.reader with
    | .raise _ _ => { t with state := .distSym, dt := fixedDTree }
    | .ok sym r =>
      if sym.toNat ≤ 29 then { t.withReader r with state := .distX, dsym := sym.setWidth 5 }
      else { t with state := .distSym, dt := fixedDTree }

end Sys2Proof.Machine
end

