-- ==== Sys2Proof/Safety.lean ====
section
/-! DEFINITION. What a reachable state of the block satisfies, in the terms the statements use. -/

namespace Sys2Proof

/-- Every symbol of the tree is below `n`: the tree of an identity alphabet of `n` positions
(41_huffman_decoder.md R101, R108). -/
def Tree.symsBelow (n : Nat) : Tree → Bool
  | .nil => true
  | .node x c0 c1 =>
    (match x with
     | some s => decide (s.toNat < n)
     | none => true) && c0.symsBelow n && c1.symsBelow n

/-- The first canonical code of each length (41_huffman_decoder.md R102), over the natural numbers. -/
def firstCode (bl : List Nat) : Nat → Nat
  | 0 => 0
  | l + 1 => 2 * (firstCode bl l + if l = 0 then 0 else bl.count l)

/-- The canonical code of position `i`: the next of its length, in symbol order (41_huffman_decoder.md
R102, R104). -/
def canonCode (bl : List Nat) (i : Nat) : Nat :=
  firstCode bl (bl.getD i 0) + (bl.take i).count (bl.getD i 0)

/-- A proper length set (41_huffman_decoder.md R104): the sum of `2 ^ (-l)` over the present symbols is
at most 1, taken in units of `2 ^ (-15)`; no length above 15. -/
def properLens (bl : List Nat) : Bool :=
  bl.all (fun l => decide (l ≤ 15)) &&
    decide (((bl.filter (· ≠ 0)).map fun l => 2 ^ (15 - l)).sum ≤ 2 ^ 15)

/-- What the block expects where an element of raw fields, or of whole bytes of the stream, stands
(30_encoding.md R60). -/
def Instr.rawExpect : Instr → Option Expect
  | .blockStored _ | .blockFixed _ | .blockDynamic _ | .blockReserved _ => some .header
  | .pad => some .pad
  | .len16 _ => some .len16
  | .nlen16 _ => some .nlen16
  | .byte _ => some .byte
  | .hlit _ => some .hlit
  | .hdist _ => some .hdist
  | .hclen _ => some .hclen
  | .cllen vs => some (.cllen vs.length)
  | _ => none

/-- The elements that start at a byte boundary (40_bit_reader.md R94, R95). -/
def Instr.byteAligned : Instr → Bool
  | .len16 _ | .nlen16 _ | .byte _ => true
  | _ => false

/-- The code-length symbol of an element (30_encoding.md R68). -/
def Instr.clSymbol : Instr → Option Nat
  | .cl n => some n.toNat
  | .cl16 _ => some 16
  | .cl17 _ => some 17
  | .cl18 _ => some 18
  | _ => none

/-- The literal/length symbol of an element (30_encoding.md R69). -/
def Instr.llSymbol (i : Instr) : Option Nat :=
  match i with
  | .lit x => some x.toNat
  | .eob => some 256
  | .llsym286 => some 286
  | .llsym287 => some 287
  | _ => i.lengthParts.map Prod.fst

/-- The distance symbol of an element (30_encoding.md R69). -/
def Instr.dSymbol (i : Instr) : Option Nat :=
  match i with
  | .dsym30 => some 30
  | .dsym31 => some 31
  | _ => i.distParts.map Prod.fst

/-- Whether an element appends a byte to the output: LIT and BYTE (43_lz77_symbols.md R138). -/
def Instr.appends : Instr → Bool
  | .byte _ | .lit _ => true
  | _ => false

namespace Machine

/-- The states in which the window of the call is set: BLK_HDR to BLK_END (10_state.md R13; 20_memory.md
R45). -/
def BlockState.windowSet : BlockState → Bool
  | .idle | .zhdr | .done | .error => false
  | _ => true

/-- The states inside a block, after its header: ST_HDR to BLK_END (10_state.md R13). -/
def BlockState.inBlock : BlockState → Bool
  | .idle | .zhdr | .blkHdr | .done | .error => false
  | _ => true

/-- The states of a dynamic header after its counts (42_block_state_machine.md R115 to R124). -/
def BlockState.countsRead : BlockState → Bool
  | .dyClen | .dyCltree | .dyLens | .dyTrees => true
  | _ => false

/-- The states in which `length` holds the length of the pair being decoded (43_lz77_symbols.md R133 to
R135). -/
def BlockState.lengthKnown : BlockState → Bool
  | .distSym | .distX | .copy => true
  | _ => false

/-- The host's accesses for one call (70_reset_and_hazards.md R187): the bytes from `a` on, `IN_LEN`, then
MODE and START in one write. -/
def callOps (m : Mode) (bs : List Byte) (a : Nat) : List HostOp :=
  match bs with
  | [] => [.writeInLen a, .writeCtrl (BitVec.ofNat 32 (1 + 2 * modeBit m))]
  | b :: bs => .writeIn a b :: callOps m bs (a + 1)

/-- How a call ended (00_scope.md R9): the output, or the code of the error kind. -/
inductive Result where
  | done (out : List Byte)
  | error (kind : BitVec 4)
deriving DecidableEq, Repr

/-- The result a state holds, if its call has ended (44_stream_and_wrapper.md R152, R154). -/
def State.result (s : State) : Option Result :=
  match s.state with
  | .done => some (.done ((List.range s.outLen).map s.outMem.read))
  | .error => some (.error s.err)
  | _ => none

/-- The invariant of the machine. -/
structure State.Inv (s : State) : Prop where
  /-- Both memories are in canonical form. -/
  inWf : s.inMem.wf = true
  outWf : s.outMem.wf = true
  /-- The invariant of 10_state.md R11. -/
  reader : s.reader.wf
  /-- The sizes of the arrays (10_state.md R22, R25). -/
  clLen : s.clLen.length = 19
  lens : s.lens.length = 320
  count : s.count.length = 16
  nextCode : s.nextCode.length = 16
  /-- The output never passes its capacity (43_lz77_symbols.md R138). -/
  out : s.outLen ≤ s.par.outCap
  /-- The blocks never pass the cap, and inside a block one more may end (44_stream_and_wrapper.md
  R149). -/
  blocks : s.blocks ≤ s.par.blockCap
  inBlock : s.state.inBlock = true → s.blocks < s.par.blockCap
  /-- A running call has `IN_LEN <= IN_CAP` (10_state.md R17), its window inside the input
  (20_memory.md R45). -/
  inLen : s.busy = true → s.inLen ≤ s.par.inCap
  window : s.state.windowSet = true → s.limit ≤ s.inLen
  /-- The window starts aligned (20_memory.md R50). -/
  aligned : s.state = .zhdr → s.bitCursor = 0#3
  /-- `ERR` is 0 but in ERROR, where it is one of the ten codes (10_state.md R19; 60_exceptions.md
  R161, R163). -/
  errNone : s.state ≠ .error → s.err = 0#4
  errKind : s.state = .error → 1 ≤ s.err.toNat ∧ s.err.toNat ≤ 10
  /-- The counts of a dynamic header (42_block_state_machine.md R115, R118). -/
  total : s.state.countsRead = true → s.total.toNat = s.hlit.toNat + s.hdist.toNat + 258
  idx : s.state = .dyLens → s.idx.toNat ≤ s.total.toNat
  /-- The ranges of 10_state.md R23. -/
  sym : s.state = .lenX → 257 ≤ s.sym.toNat ∧ s.sym.toNat ≤ 285
  length : s.state.lengthKnown = true → 3 ≤ s.length.toNat ∧ s.length.toNat ≤ 258
  dsym : s.state = .distX → s.dsym.toNat ≤ 29
  dist : s.state = .copy → 1 ≤ s.dist.toNat ∧ s.dist.toNat ≤ s.outLen
  copyRem : s.state = .copy → s.copyRem.toNat ≤ 258

/-- The three trees hold symbols of their own alphabets only (41_huffman_decoder.md R101, R108) and
never pass their arenas (R107). -/
structure State.TreesSound (s : State) : Prop where
  clSyms : s.clt.symsBelow 19 = true
  llSyms : s.llt.symsBelow 288 = true
  dSyms : s.dt.symsBelow 32 = true
  clSize : s.clt.size ≤ nodeCapCl
  llSize : s.llt.size ≤ nodeCapLl
  dSize : s.dt.size ≤ nodeCapD

end Machine

end Sys2Proof
end

