-- ==== Sys2Proof/Certificates/Slice0/Obligations.lean ====
section
/-! DEFINITION. The statements for the provers, in the order of the spec: decoding and encoding, the
step, the Bit Reader, the Huffman decoder, the elements, the rows, the host, the whole machine. -/

open Sys2Proof Sys2Proof.Machine

/-! Decoding and encoding. -/

/-- Words written out from the spec's encodings decode to the elements they stand for (30_encoding.md
R61, R64, R65, R70, R71). How the bits of a table word are numbered and which kind of word it is are
the model's reading of the table (DEDUCED, notes/assumptions/15.md); so is the last clause, which no
rule chooses: the word 1 is a final stored header by R61 and a START by 10_state.md R16, and the
model takes it as a START. -/
def Obligations.TableWordsDecode : Prop :=
  decodeTableWord 8 0 = some (.blockStored false) ∧
  decodeTableWord 8 2 = some (.blockFixed false) ∧
  decodeTableWord 8 3 = some (.blockFixed true) ∧
  decodeTableWord 8 4 = some (.blockDynamic false) ∧
  decodeTableWord 8 6 = some (.blockReserved false) ∧
  decodeTableWord 8 0x12 = some (.length265 0#1) ∧
  decodeTableWord 8 0xC5 = some .length285 ∧
  decodeTableWord 8 0xC6 = some .llsym286 ∧
  decodeTableWord 8 0x40 = some (.dist8 0#3) ∧
  decodeTableWord 8 1 = some (.start .raw)

/-- Every element that is not Huffman-coded is decoded as what was encoded, with every operand at every
value (30_encoding.md R76, R77). -/
def Obligations.RawElementsRoundTrip : Prop :=
  (∀ (k : Codebook) (i : Instr) (e : Expect) (r : Reader) (rest : List Bool),
    i.rawExpect = some e → (i.byteAligned = true → r.bitCursor = 0#3) →
    r.unread = encode k r.pos i ++ rest →
    ∃ r', decode e r = .ok i r' ∧ r'.unread = rest ∧ r'.mem = r.mem ∧ r'.limit = r.limit) ∧
  (∀ (k : Codebook) (p : Nat) (b0 b1 : Byte) (m : Mem),
    (∀ j < 16, (m.read (j / 8)).getLsbD (j % 8) = (encode k p (.zhdr b0 b1)).getD j false) →
    decodeEnvelope m = .zhdr b0 b1) ∧
  (∀ (k : Codebook) (p : Nat) (m : Mode) (v : BitVec 32),
    (∀ j < 32, v.getLsbD j = (encode k p (.start m)).getD j false) →
    decodeCtrl v = some (.start m))

/-- Every Huffman-coded element is decoded as what was encoded, with every operand at every value,
wherever the tree in force walks the code in use to the element's symbol (30_encoding.md R74, R76,
R77). A CL16 as the first symbol is the one that is refused (42_block_state_machine.md R120). -/
def Obligations.CodedElementsRoundTrip : Prop :=
  ∀ (k : Codebook) (t : Sys2Proof.Tree) (i : Instr) (n : Nat) (r : Reader) (rest : List Bool),
    r.unread = encode k r.pos i ++ rest →
    (i.clSymbol = some n → (∀ w, t.walk (k.cl n ++ w) = some (BitVec.ofNat 9 n, w)) →
      ∀ first : Bool, (first = true → n ≠ 16) →
      ∃ r', decode (.clSym t first) r = .ok i r' ∧ r'.unread = rest ∧ r'.mem = r.mem ∧
        r'.limit = r.limit) ∧
    (i.llSymbol = some n → (∀ w, t.walk (k.ll n ++ w) = some (BitVec.ofNat 9 n, w)) →
      ∃ r', decode (.llSym t) r = .ok i r' ∧ r'.unread = rest ∧ r'.mem = r.mem ∧
        r'.limit = r.limit) ∧
    (i.dSymbol = some n → (∀ w, t.walk (k.d n ++ w) = some (BitVec.ofNat 9 n, w)) →
      ∃ r', decode (.dSym t) r = .ok i r' ∧ r'.unread = rest ∧ r'.mem = r.mem ∧
        r'.limit = r.limit)

/-! The step. -/

/-- A step runs the decoded instruction: with no access of the host pending, in the state of
42_block_state_machine.md R110 that expects it, the element at the cursor is executed with the cursor
past its bits. A LENGTH or DIST takes two steps, its code in the first, as two rows of R110. The rest
of the division into steps is the model's choice and not R110's, whose row is one atomic step: one
element of ST_HDR or DY_COUNTS a step, the field `part` saying which (notes/assumptions/2.md), the
envelope in up to three steps (notes/assumptions/11.md), an access of the host, a command among them,
taken from the head of the queue as one step (notes/assumptions/3.md). `run` at the head leaves the
step to the block: every row and element, and every stop, is then as with an empty queue. -/
def Obligations.StepRunsDecodedInstruction : Prop :=
  (∀ (s : State) (e : Expect) (i : Instr) (r : Reader),
    s.host = [] → s.inReadable = true → decode e s.reader = .ok i r →
    ((s.state = .blkHdr ∧ s.blocks ≠ s.par.blockCap ∧ e = .header) ∨
      (s.state = .stHdr ∧ s.part = .first ∧ e = .pad) ∨
      (s.state = .stHdr ∧ s.part = .second ∧ e = .len16) ∨
      (s.state = .stHdr ∧ s.part = .third ∧ e = .nlen16) ∨
      (s.state = .stCopy ∧ s.stRem ≠ 0#16 ∧ e = .byte) ∨
      (s.state = .dyCounts ∧ s.part = .first ∧ e = .hlit) ∨
      (s.state = .dyCounts ∧ s.part = .second ∧ e = .hdist) ∨
      (s.state = .dyCounts ∧ s.part = .third ∧ e = .hclen) ∨
      (s.state = .dyClen ∧ e = .cllen (s.hclen.toNat + 4)) ∨
      (s.state = .dyLens ∧ s.idx.toNat < s.total.toNat ∧
        e = .clSym s.clt (decide (s.idx = 0#9))) ∨
      (s.state = .sym ∧ i.lengthParts = none ∧ e = .llSym s.llt) ∨
      (s.state = .lenX ∧ e = .lenX s.sym.toNat) ∨
      (s.state = .distSym ∧ i.distParts = none ∧ e = .dSym s.dt) ∨
      (s.state = .distX ∧ e = .distX s.dsym.toNat)) →
    step s = exec i (s.withReader r)) ∧
  (∀ (s : State) (i : Instr) (r : Reader) (y x : Nat),
    s.host = [] → s.inReadable = true → s.state = .sym →
    decode (.llSym s.llt) s.reader = .ok i r → i.lengthParts = some (y, x) →
    ∃ u, step s = .next u ∧ u.state = .lenX ∧ u.sym = BitVec.ofNat 9 y ∧
      step u =
        exec i (({ s with state := .lenX, sym := BitVec.ofNat 9 y } : State).withReader r)) ∧
  (∀ (s : State) (i : Instr) (r : Reader) (d y : Nat),
    s.host = [] → s.inReadable = true → s.state = .distSym →
    decode (.dSym s.dt) s.reader = .ok i r → i.distParts = some (d, y) →
    ∃ u, step s = .next u ∧ u.state = .distX ∧ u.dsym = BitVec.ofNat 5 d ∧
      step u =
        exec i (({ s with state := .distX, dsym := BitVec.ofNat 5 d } : State).withReader r)) ∧
  (∀ s : State, s.host = [] → s.state = .zhdr →
    (s.part = .first → 2 ≤ s.inLen → s.inLen ≤ s.par.inCap →
      step s = exec (decodeEnvelope s.inMem) s) ∧
    (s.part = .second → step s = exec .dictid s) ∧
    (s.part = .third → step s = exec .adler s)) ∧
  (∀ (s : State) (v : BitVec 32) (ops : List HostOp) (i : Instr),
    s.host = .writeCtrl v :: ops → decodeCtrl v = some i →
    step s = exec i { s with host := ops }) ∧
  (∀ (s : State) (ops : List HostOp),
    s.host = .assertReset :: ops → step s = exec .reset { s with host := ops }) ∧
  (∀ (s : State) (ops : List HostOp), s.host = .run :: ops →
    (∀ t, step { s with host := [] } = .next t → step s = .next { t with host := ops }) ∧
    (∀ f, step { s with host := [] } = .fault f → step s = .fault f) ∧
    (∀ q, step { s with host := [] } = .refused q → step s = .refused q))

/-! The Bit Reader. -/

/-- The position arithmetic of 40_bit_reader.md R98, with the values of R46, R47 and R94. -/
def Obligations.PositionArithmetic : Prop :=
  ∀ r : Reader, r.wf →
    (r.pos < r.endPos →
      ∃ r', r.nextBit = .ok (r.bitAt r.pos) r' ∧ r'.pos = r.pos + 1 ∧ r'.mem = r.mem ∧
        r'.limit = r.limit) ∧
    (r.endPos ≤ r.pos → r.nextBit = .raise .inputUnderrun r) ∧
    (∀ n, r.pos + n ≤ r.endPos →
      ∃ r', r.nextBits n = .ok (∑ i ∈ Finset.range n, (r.bitAt (r.pos + i)).toNat * 2 ^ i) r' ∧
        r'.pos = r.pos + n ∧ r'.mem = r.mem ∧ r'.limit = r.limit) ∧
    (∀ n, r.endPos < r.pos + n → ∃ r', r.nextBits n = .raise .inputUnderrun r') ∧
    r.align.pos = 8 * ((r.pos + 7) / 8) ∧
    (8 * ((r.pos + 7) / 8) + 8 ≤ r.endPos →
      ∃ r', r.nextByte = .ok (r.mem.read ((r.pos + 7) / 8)) r' ∧
        r'.pos = 8 * ((r.pos + 7) / 8) + 8 ∧ r'.mem = r.mem ∧ r'.limit = r.limit) ∧
    (r.endPos < 8 * ((r.pos + 7) / 8) + 8 → ∃ r', r.nextByte = .raise .inputUnderrun r')

/-- `align()` (40_bit_reader.md R93): nothing at a byte boundary, otherwise the next byte; it never
leaves the window. -/
def Obligations.AlignToByteBoundary : Prop :=
  ∀ r : Reader,
    (r.bitCursor = 0#3 → r.align = r) ∧
    (r.bitCursor ≠ 0#3 → r.align = { r with bitCursor := 0#3, byteCursor := r.byteCursor + 1 }) ∧
    (r.wf → r.align.byteCursor ≤ r.limit)

/-- The byte-aligned reads (40_bit_reader.md R95, R96): a number is little-endian, a slice is the bytes
in order, both from the next byte boundary on; a read that does not fit is InputUnderrun. -/
def Obligations.ByteAlignedReads : Prop :=
  ∀ (r : Reader) (n : Nat), r.wf → 1 ≤ n →
    ((r.pos + 7) / 8 + n ≤ r.limit →
      (∃ r', r.nextBytesAsNumber n =
          .ok (∑ i ∈ Finset.range n, (r.mem.read ((r.pos + 7) / 8 + i)).toNat * 256 ^ i) r' ∧
        r'.byteCursor = (r.pos + 7) / 8 + n ∧ r'.bitCursor = 0#3 ∧ r'.mem = r.mem ∧
        r'.limit = r.limit) ∧
      (∃ r', r.nextBytesAsSlice n =
          .ok ((List.range n).map fun i => r.mem.read ((r.pos + 7) / 8 + i)) r' ∧
        r'.byteCursor = (r.pos + 7) / 8 + n ∧ r'.bitCursor = 0#3 ∧ r'.mem = r.mem ∧
        r'.limit = r.limit)) ∧
    (r.limit < (r.pos + 7) / 8 + n →
      (∃ r', r.nextBytesAsNumber n = .raise .inputUnderrun r') ∧
      (∃ r', r.nextBytesAsSlice n = .raise .inputUnderrun r')) ∧
    r.nextBytesAsNumber 0 = .ok 0 r ∧ r.nextBytesAsSlice 0 = .ok [] r.align

/-! The Huffman decoder. -/

/-- `insert` (41_huffman_decoder.md R103) in the abstract view of R109: the code's node becomes the leaf
of the symbol, whatever it held; every other leaf stays; the nodes added are those of the code's
prefixes. -/
def Obligations.InsertMarksOneLeaf : Prop :=
  ∀ (t : Sys2Proof.Tree) (s : BitVec 9) (w v : List Bool),
    (t.insert s w).leafSym v = (if v = w then some s else t.leafSym v) ∧
    (t.insert s w).hasNode v = (t.hasNode v || v.isPrefixOf w)

/-- `decode_symbol` (41_huffman_decoder.md R105) in the abstract view of R109: it reads bits until the
first prefix, not the empty one, that has no node (TreeError) or is a leaf (its symbol), and is
TreeError where the window ends first. -/
def Obligations.DecodeSymbolStopsAtFirstLeaf : Prop :=
  ∀ (t : Sys2Proof.Tree) (r : Reader), r.wf →
    (∀ k, 1 ≤ k → k ≤ r.unread.length →
      (∀ j, 1 ≤ j → j < k →
        t.hasNode (r.unread.take j) = true ∧ t.leafSym (r.unread.take j) = none) →
      (t.hasNode (r.unread.take k) = false → ∃ r', t.decodeSymbol r = .raise .treeError r') ∧
      (∀ s, t.leafSym (r.unread.take k) = some s →
        ∃ r', t.decodeSymbol r = .ok s r' ∧ r'.pos = r.pos + k ∧ r'.mem = r.mem ∧
          r'.limit = r.limit)) ∧
    ((∀ j, 1 ≤ j → j ≤ r.unread.length →
        t.hasNode (r.unread.take j) = true ∧ t.leafSym (r.unread.take j) = none) →
      ∃ r', t.decodeSymbol r = .raise .treeError r')

/-- The arena bound of 41_huffman_decoder.md R107, and the capacities of 00_scope.md R5. -/
def Obligations.ArenaNeverOverflows : Prop :=
  (∀ (bl : List Nat) (L : Nat), (∀ l ∈ bl, l ≤ L) →
    (buildTree bl).tree.size ≤ 1 + bl.length * L) ∧
  1 + 19 * 7 = nodeCapCl ∧ 1 + 288 * 15 = nodeCapLl ∧ 1 + 32 * 15 = nodeCapD

/-- A built tree holds symbols of its own identity alphabet only (41_huffman_decoder.md R101). -/
def Obligations.BuiltSymbolsInAlphabet : Prop :=
  ∀ bl : List Nat, bl.length ≤ 512 → (buildTree bl).tree.symsBelow bl.length = true

/-- For a proper length set every present symbol has its canonical code, below `2 ^ l`, and decoding that
code gives the symbol, whatever follows it: no code is a prefix of another (41_huffman_decoder.md
R104). -/
def Obligations.ProperSetsDecodeCanonically : Prop :=
  ∀ bl : List Nat, bl.length ≤ 288 → properLens bl = true →
    ∀ i < bl.length, bl.getD i 0 ≠ 0 →
      canonCode bl i < 2 ^ bl.getD i 0 ∧
      ∀ w, (buildTree bl).tree.walk (huffBits (bl.getD i 0) (canonCode bl i) ++ w) =
        some (BitVec.ofNat 9 i, w)

/-- The worked length sets of 41_huffman_decoder.md R102, R104 and R106: proper, incomplete,
over-subscribed. -/
def Obligations.WorkedLengthSets : Prop :=
  (let t := (buildTree [2, 1, 3, 3]).tree
   t.leafSym [true, false] = some 0#9 ∧ t.leafSym [false] = some 1#9 ∧
     t.leafSym [true, true, false] = some 2#9 ∧ t.leafSym [true, true, true] = some 3#9) ∧
  (let t := (buildTree [3, 3, 3, 3, 3, 2, 4, 4]).tree
   t.leafSym [false, true, false] = some 0#9 ∧ t.leafSym [false, true, true] = some 1#9 ∧
     t.leafSym [true, false, false] = some 2#9 ∧ t.leafSym [true, false, true] = some 3#9 ∧
     t.leafSym [true, true, false] = some 4#9 ∧ t.leafSym [false, false] = some 5#9 ∧
     t.leafSym [true, true, true, false] = some 6#9 ∧
     t.leafSym [true, true, true, true] = some 7#9 ∧ t.size = 15) ∧
  (let t := (buildTree [2, 0, 2]).tree
   t.leafSym [false, false] = some 0#9 ∧ t.leafSym [false, true] = some 2#9 ∧
     t.hasNode [true] = false) ∧
  (let t := (buildTree [1, 1, 1]).tree
   t.leafSym [false] = some 2#9 ∧ t.leafSym [true] = some 1#9) ∧
  (let t := (buildTree [1, 2, 2, 2]).tree
   t.leafSym [false] = some 0#9 ∧ t.leafSym [false, false] = some 3#9 ∧
     t.leafSym [true, false] = some 1#9 ∧ t.leafSym [true, true] = some 2#9)

/-- The fixed literal/length code of 30_encoding.md R64: counts, first codes, the code of every symbol,
completeness, and the size of the tree. -/
def Obligations.FixedLiteralLengthCode : Prop :=
  (countLens fixedLlLen).getD 7 0#9 = 24#9 ∧ (countLens fixedLlLen).getD 8 0#9 = 152#9 ∧
  (countLens fixedLlLen).getD 9 0#9 = 112#9 ∧
  (initCodes (countLens fixedLlLen)).getD 7 0#16 = 0#16 ∧
  (initCodes (countLens fixedLlLen)).getD 8 0#16 = 48#16 ∧
  (initCodes (countLens fixedLlLen)).getD 9 0#16 = 400#16 ∧
  (∀ s < 288, ∀ w,
    fixedLlTree.walk
        ((if s ≤ 143 then huffBits 8 (48 + s)
          else if s ≤ 255 then huffBits 9 (400 + (s - 144))
          else if s ≤ 279 then huffBits 7 (s - 256)
          else huffBits 8 (192 + (s - 280))) ++ w) =
      some (BitVec.ofNat 9 s, w)) ∧
  (∀ w : List Bool, 9 ≤ w.length → (fixedLlTree.walk w).isSome = true) ∧
  fixedLlTree.size = 575

/-- The fixed distance code of 30_encoding.md R65: 5 bits each for symbols 0 to 29, no node for the
prefix `1111`, 60 nodes. -/
def Obligations.FixedDistanceCode : Prop :=
  (∀ d < 30, ∀ w, fixedDTree.walk (huffBits 5 d ++ w) = some (BitVec.ofNat 9 d, w)) ∧
  fixedDTree.hasNode [true, true, true] = true ∧
  (∀ w, fixedDTree.hasNode ([true, true, true, true] ++ w) = false) ∧
  (∀ w, fixedDTree.walk ([true, true, true, true] ++ w) = none) ∧
  fixedDTree.size = 60

/-! The elements. Where a statement gives the next state as `{ s with … }` it gives the frame too: every
other register, and every byte of both memories, is that of `s`. -/

/-- The three usable block headers record their fields and choose the body
(42_block_state_machine.md R111, R112). The field `part` is the model's own
(notes/assumptions/2.md). -/
def Obligations.BlockHeadersComplete : Prop :=
  ∀ (s : State) (f : Bool),
    exec (.blockStored f) s =
      .next { s with bfinal := f, btype := 0#2, state := .stHdr, part := .first } ∧
    exec (.blockFixed f) s =
      .next { s with bfinal := f, btype := 1#2, state := .fxSetup, part := .first } ∧
    exec (.blockDynamic f) s =
      .next { s with bfinal := f, btype := 2#2, state := .dyCounts, part := .first }

/-- The header of a stored block, element by element (42_block_state_machine.md R113): the pad moves the
cursor alone, LEN is recorded, a matching NLEN starts the copy. That each element is a step, counted
by `part`, is the model's choice (notes/assumptions/2.md). -/
def Obligations.StoredHeaderElements : Prop :=
  ∀ (s : State) (n : BitVec 16),
    exec .pad s =
      .next
        { s with
          byteCursor := if s.bitCursor = 0#3 then s.byteCursor else s.byteCursor + 1,
          bitCursor := 0#3, part := .second } ∧
    exec (.len16 n) s = .next { s with stLen := n, part := .third } ∧
    exec (.nlen16 (s.stLen ^^^ 0xFFFF#16)) s =
      .next
        { s with
          stNlen := s.stLen ^^^ 0xFFFF#16, stRem := s.stLen, state := .stCopy, part := .first }

/-- An NLEN that is not the complement of LEN takes UncompressedLengthMismatch, code 2, before any byte
is copied (60_exceptions.md R165). -/
def Obligations.LengthMismatchFaults : Prop :=
  ∀ (s : State) (n : BitVec 16), n ≠ s.stLen ^^^ 0xFFFF#16 →
    exec (.nlen16 n) s = .next { s with stNlen := n, err := 2#4, state := .error }

/-- LIT and BYTE append one byte at `out_len` (43_lz77_symbols.md R131, R138;
42_block_state_machine.md R113): that byte of OUT, `out_len` and the element's own register change,
and nothing else. -/
def Obligations.LitAndByteAppend : Prop :=
  ∀ (s : State) (x : Byte), s.outMem.wf = true → s.outLen ≠ s.par.outCap →
    (∃ t, exec (.lit x) s = .next t ∧
      t = { s with sym := x.setWidth 9, outLen := s.outLen + 1, outMem := t.outMem } ∧
      t.outMem.wf = true ∧
      ∀ a, t.outMem.read a = if a = s.outLen then x else s.outMem.read a) ∧
    (∃ t, exec (.byte x) s = .next t ∧
      t = { s with stRem := s.stRem - 1#16, outLen := s.outLen + 1, outMem := t.outMem } ∧
      t.outMem.wf = true ∧
      ∀ a, t.outMem.read a = if a = s.outLen then x else s.outMem.read a)

/-- An append to a full output takes OutputOverflow, code 8, and writes no byte (60_exceptions.md R171;
43_lz77_symbols.md R138). -/
def Obligations.AppendToFullOutputFaults : Prop :=
  ∀ (s : State) (x : Byte), s.outLen = s.par.outCap →
    exec (.lit x) s = .next { s with sym := x.setWidth 9, err := 8#4, state := .error } ∧
    exec (.byte x) s = .next { s with err := 8#4, state := .error }

/-- The counts of a dynamic block (42_block_state_machine.md R115); `total` is exact in 9 bits, and no
value is rejected. That the three counts are three elements, each a step, counted by `part`, is the
model's choice (notes/assumptions/2.md): R110 makes DY_COUNTS one row. -/
def Obligations.DynamicCounts : Prop :=
  ∀ (s : State) (v : BitVec 5) (c : BitVec 4),
    exec (.hlit v) s = .next { s with hlit := v, part := .second } ∧
    exec (.hdist v) s = .next { s with hdist := v, part := .third } ∧
    ∃ t, exec (.hclen c) s = .next t ∧
      t = { s with hclen := c, total := t.total, state := .dyClen, part := .first } ∧
      t.total.toNat = s.hlit.toNat + s.hdist.toNat + 258

/-- CLLEN places its lengths in the order of `CL_PERM`, the slots not sent being 0
(42_block_state_machine.md R116). -/
def Obligations.CodeLengthLengthsPlaced : Prop :=
  ∀ (s : State) (vs : List (BitVec 3)), Instr.wellFormed (.cllen vs) = true →
    ∃ t, exec (.cllen vs) s = .next t ∧
      t = { s with clLen := t.clLen, state := .dyCltree } ∧ t.clLen.length = 19 ∧
      ∀ i < 19,
        t.clLen.getD
            ([16, 17, 18, 0, 8, 7, 9, 6, 10, 5, 11, 4, 12, 3, 13, 2, 14, 1, 15].getD i 0) 0#3 =
          vs.getD i 0#3

/-- CL n writes the length at `idx` and counts it (42_block_state_machine.md R119). -/
def Obligations.CodeLengthStored : Prop :=
  ∀ (s : State) (n : BitVec 4), s.lens.length = 320 → s.idx.toNat < 320 →
    ∃ t, exec (.cl n) s = .next t ∧ t = { s with lens := t.lens, idx := t.idx } ∧
      t.idx.toNat = s.idx.toNat + 1 ∧ t.lens.length = 320 ∧
      ∀ j < 320, t.lens.getD j 0#4 = if j = s.idx.toNat then n else s.lens.getD j 0#4

/-- CL16, CL17 and CL18 write their run, the previous length or zeros (42_block_state_machine.md R120
to R122). -/
def Obligations.RepeatsWriteTheirRun : Prop :=
  ∀ (s : State) (i : Instr) (base x : Nat) (v : BitVec 4),
    s.lens.length = 320 → s.total.toNat ≤ 320 → s.idx.toNat + base + x ≤ s.total.toNat →
    ((∃ r, i = .cl16 r ∧ base = 3 ∧ x = r.toNat ∧ s.idx ≠ 0#9 ∧
        v = s.lens.getD (s.idx.toNat - 1) 0#4) ∨
      (∃ r, i = .cl17 r ∧ base = 3 ∧ x = r.toNat ∧ v = 0#4) ∨
      (∃ r, i = .cl18 r ∧ base = 11 ∧ x = r.toNat ∧ v = 0#4)) →
    ∃ t, exec i s = .next t ∧ t = { s with lens := t.lens, idx := t.idx, rep := t.rep } ∧
      t.rep.toNat = base + x ∧ t.idx.toNat = s.idx.toNat + base + x ∧ t.lens.length = 320 ∧
      ∀ j < 320,
        t.lens.getD j 0#4 =
          if s.idx.toNat ≤ j ∧ j < s.idx.toNat + base + x then v else s.lens.getD j 0#4

/-- A CL16 with no previous length takes RepeatWithoutPrevious, code 9 (42_block_state_machine.md R120;
60_exceptions.md R172). In a run it is the decoding that finds it, once the code of the symbol is
read and before any extra bit (R174), so also where the window holds none: that step ends in ERROR
with the cursor just past the code. The meaning of the element takes the same fault and changes
nothing else. A run past `total` takes CodeLengthOverrun, code 10, before any entry is written
(R173). -/
def Obligations.RepeatFaults : Prop :=
  ∀ s : State,
    (∀ r, s.idx = 0#9 → exec (.cl16 r) s = .next { s with err := 9#4, state := .error }) ∧
    (∀ r, s.idx ≠ 0#9 → s.total.toNat < s.idx.toNat + 3 + r.toNat →
      ∃ t, exec (.cl16 r) s = .next t ∧
        t = { s with rep := t.rep, err := 10#4, state := .error } ∧ t.rep.toNat = 3 + r.toNat) ∧
    (∀ r, s.total.toNat < s.idx.toNat + 3 + r.toNat →
      ∃ t, exec (.cl17 r) s = .next t ∧
        t = { s with rep := t.rep, err := 10#4, state := .error } ∧ t.rep.toNat = 3 + r.toNat) ∧
    (∀ r, s.total.toNat < s.idx.toNat + 11 + r.toNat →
      ∃ t, exec (.cl18 r) s = .next t ∧
        t = { s with rep := t.rep, err := 10#4, state := .error } ∧ t.rep.toNat = 11 + r.toNat) ∧
    (∀ w, s.state = .dyLens → s.idx = 0#9 → 0 < s.total.toNat → s.host = [] →
      s.inReadable = true → s.reader.wf → s.clt.walk s.reader.unread = some (16#9, w) →
      ∃ t, step s = .next t ∧
        t =
          { s with
            byteCursor := t.byteCursor, bitCursor := t.bitCursor, err := 9#4, state := .error } ∧
        t.pos + w.length = 8 * s.limit)

/-- EOB ends the block: no byte, no other register, no alignment (43_lz77_symbols.md R132). -/
def Obligations.EndOfBlockEnds : Prop :=
  ∀ s : State, exec .eob s = .next { s with sym := 256#9, state := .blkEnd }

/-- The 29 LENGTH elements: the length is `LEN_BASE[s-257] + x`, exact in 9 bits and 3 to 258
(43_lz77_symbols.md R133; 30_encoding.md R70). -/
def Obligations.LengthElementsComplete : Prop :=
  ∀ (s : State) (i : Instr) (y x : Nat), i.lengthParts = some (y, x) →
    ∃ t, exec i s = .next t ∧
      t = { s with sym := t.sym, length := t.length, state := .distSym } ∧ t.sym.toNat = y ∧
      t.length.toNat =
        [3, 4, 5, 6, 7, 8, 9, 10, 11, 13, 15, 17, 19, 23, 27, 31, 35, 43, 51, 59, 67, 83, 99, 115,
          131, 163, 195, 227, 258].getD (y - 257) 0 + x ∧
      3 ≤ t.length.toNat ∧ t.length.toNat ≤ 258

/-- The 30 DIST elements where the distance is within the output: the distance is `DIST_BASE[d] + y`,
exact in 16 bits, and the copy of `length` bytes begins (43_lz77_symbols.md R134, R135, R139;
30_encoding.md R71). -/
def Obligations.DistanceElementsComplete : Prop :=
  ∀ (s : State) (i : Instr) (d y : Nat), i.distParts = some (d, y) →
    [1, 2, 3, 4, 5, 7, 9, 13, 17, 25, 33, 49, 65, 97, 129, 193, 257, 385, 513, 769, 1025, 1537,
      2049, 3073, 4097, 6145, 8193, 12289, 16385, 24577].getD d 0 + y ≤ s.outLen →
    ∃ t, exec i s = .next t ∧
      t = { s with dsym := t.dsym, dist := t.dist, copyRem := s.length, state := .copy } ∧
      t.dsym.toNat = d ∧
      t.dist.toNat =
        [1, 2, 3, 4, 5, 7, 9, 13, 17, 25, 33, 49, 65, 97, 129, 193, 257, 385, 513, 769, 1025,
          1537, 2049, 3073, 4097, 6145, 8193, 12289, 16385, 24577].getD d 0 + y ∧
      1 ≤ t.dist.toNat ∧ t.dist.toNat ≤ 32768

/-- A distance past the start of the output takes DistanceTooFar, code 6, before any byte is copied
(60_exceptions.md R169; 43_lz77_symbols.md R139). -/
def Obligations.DistanceTooFarFaults : Prop :=
  ∀ (s : State) (i : Instr) (d y : Nat), i.distParts = some (d, y) →
    s.outLen < entry distBase d + y →
    ∃ t, exec i s = .next t ∧
      t = { s with dsym := t.dsym, dist := t.dist, err := 6#4, state := .error } ∧
      t.dsym.toNat = d ∧ t.dist.toNat = entry distBase d + y

/-- The five elements with no meaning take their fault: the reserved block type IllegalBlockFormat, code
1, whatever `bfinal` is (42_block_state_machine.md R126; 60_exceptions.md R164), the four symbols
TreeError, code 3 (43_lz77_symbols.md R136, R137). The field `part` is the model's own
(notes/assumptions/2.md). -/
def Obligations.InvalidElementsFault : Prop :=
  ∀ s : State,
    (∀ f : Bool,
      exec (.blockReserved f) s =
        .next
          { s with bfinal := f, btype := 3#2, err := 1#4, state := .error, part := .first }) ∧
    exec .llsym286 s = .next { s with sym := 286#9, err := 3#4, state := .error } ∧
    exec .llsym287 s = .next { s with sym := 287#9, err := 3#4, state := .error } ∧
    exec .dsym30 s = .next { s with dsym := 30#5, err := 3#4, state := .error } ∧
    exec .dsym31 s = .next { s with dsym := 31#5, err := 3#4, state := .error }

/-- The elements of the envelope where it fits: bit 5 of the second byte alone chooses, the dictionary
id is skipped, the checksum is stripped (44_stream_and_wrapper.md R150, R151). That the envelope is
taken in up to three steps, with the limit at `IN_LEN` until the last, is the model's choice
(notes/assumptions/11.md). -/
def Obligations.EnvelopeElements : Prop :=
  ∀ (s : State) (b0 b1 : Byte),
    (2 ≤ s.inLen →
      exec (.zhdr b0 b1) s =
        .next
          { s with
            byteCursor := 2, bitCursor := 0#3, limit := s.inLen,
            part := if b1.getLsbD 5 = true then .second else .third }) ∧
    (s.byteCursor + 4 ≤ s.limit →
      exec .dictid s = .next { s with byteCursor := s.byteCursor + 4, part := .third }) ∧
    (s.byteCursor + 4 ≤ s.inLen →
      exec .adler s =
        .next { s with bitCursor := 0#3, limit := s.inLen - 4, state := .blkHdr, part := .first })

/-- The whole zlib window (44_stream_and_wrapper.md R150) from state ZHDR, over at most three steps: an
input that does not hold the envelope ends in InputUnderrun, code 5; otherwise the window is
`[start, IN_LEN - 4)` and the stream begins. The division into steps is the model's choice
(notes/assumptions/11.md). -/
def Obligations.ZlibWindow : Prop :=
  ∀ s : State, s.state = .zhdr → s.part = .first → s.host = [] → s.inLen ≤ s.par.inCap →
    ∀ start : Nat, start = (if (s.inMem.read 1).getLsbD 5 = true then 6 else 2) →
    (s.inLen < 2 → core.run 1 s = .next { s with err := 5#4, state := .error }) ∧
    (2 ≤ s.inLen → s.inLen < start + 4 →
      ∃ k t, k ≤ 3 ∧ core.run k s = .next t ∧ t.state = .error ∧ t.err = 5#4) ∧
    (start + 4 ≤ s.inLen →
      ∃ k, k ≤ 3 ∧
        core.run k s =
          .next
            { s with
              byteCursor := start, bitCursor := 0#3, limit := s.inLen - 4, state := .blkHdr,
              part := .first })

/-! The rows that read no element, and the faults of the reads. -/

/-- A block header as a step (42_block_state_machine.md R111, R112, R126): the first bit is BFINAL, the
next two BTYPE, low bit first; fewer than three bits are InputUnderrun. That this underrun leaves
`bfinal` and `btype` as they were is the model's choice (DESIGN CHOICE, notes/assumptions/10.md):
with one or two bits left R111's pseudocode has written `bfinal` before the fault, and
60_exceptions.md R175 has that effect unobservable and lets a model discard it. The field `part` is
the model's own (notes/assumptions/2.md). -/
def Obligations.HeaderStep : Prop :=
  ∀ s : State, s.state = .blkHdr → s.host = [] → s.blocks ≠ s.par.blockCap →
    s.inReadable = true →
    (s.pos + 3 ≤ 8 * s.limit →
      ∃ t, step s = .next t ∧ t.pos = s.pos + 3 ∧
        t =
          { s with
            byteCursor := t.byteCursor, bitCursor := t.bitCursor, bfinal := t.bfinal,
            btype := t.btype, state := t.state, err := t.err, part := .first } ∧
        t.bfinal = s.reader.bitAt s.pos ∧
        t.btype.toNat =
          (s.reader.bitAt (s.pos + 1)).toNat + 2 * (s.reader.bitAt (s.pos + 2)).toNat ∧
        (t.btype = 0#2 → t.state = .stHdr ∧ t.err = s.err) ∧
        (t.btype = 1#2 → t.state = .fxSetup ∧ t.err = s.err) ∧
        (t.btype = 2#2 → t.state = .dyCounts ∧ t.err = s.err) ∧
        (t.btype = 3#2 → t.state = .error ∧ t.err = 1#4)) ∧
    (8 * s.limit < s.pos + 3 →
      ∃ t, step s = .next t ∧ t.state = .error ∧ t.err = 5#4 ∧
        t =
          { s with
            byteCursor := t.byteCursor, bitCursor := t.bitCursor, state := .error, err := 5#4 })

/-- The loop over blocks (44_stream_and_wrapper.md R148): the cap test comes before any bit of a header
is read (R149; MissingFinalBlock, code 7, 60_exceptions.md R170); a block that ends is counted, and
then comes DONE after the final one, otherwise the next header at the same cursor
(42_block_state_machine.md R125). -/
def Obligations.BlockLoop : Prop :=
  ∀ s : State, s.host = [] →
    (s.state = .blkHdr → s.blocks = s.par.blockCap →
      step s = .next { s with err := 7#4, state := .error }) ∧
    (s.state = .blkEnd → s.bfinal = true →
      step s = .next { s with blocks := s.blocks + 1, state := .done }) ∧
    (s.state = .blkEnd → s.bfinal = false →
      step s = .next { s with blocks := s.blocks + 1, state := .blkHdr })

/-- The trees a block builds (42_block_state_machine.md R114, R117, R124): the fixed lengths, the
code-length lengths, and the combined array split at `hlit + 257`; the build scratch changes too, no
stream bit is read. The combined array is complete, and DY_TREES comes next, when `idx = total`
(R110, R118). -/
def Obligations.TreesBuilt : Prop :=
  ∀ s : State, s.host = [] →
    (s.state = .fxSetup →
      ∃ t, step s = .next t ∧
        t =
          { s with
            llt :=
              (buildTree
                (List.replicate 144 8 ++ List.replicate 112 9 ++ List.replicate 24 7 ++
                  List.replicate 8 8)).tree,
            dt := (buildTree (List.replicate 30 5)).tree, count := t.count, nextCode := t.nextCode,
            state := .sym }) ∧
    (s.state = .dyCltree →
      ∃ t, step s = .next t ∧
        t =
          { s with
            clt := (buildTree (s.clLen.map BitVec.toNat)).tree, idx := 0#9, count := t.count,
            nextCode := t.nextCode, state := .dyLens }) ∧
    (s.state = .dyLens → s.total.toNat ≤ s.idx.toNat →
      step s = .next { s with state := .dyTrees }) ∧
    (s.state = .dyTrees →
      ∃ t, step s = .next t ∧
        t =
          { s with
            llt := (buildTree ((s.lens.take (s.hlit.toNat + 257)).map BitVec.toNat)).tree,
            dt :=
              (buildTree
                (((s.lens.drop (s.hlit.toNat + 257)).take (s.hdist.toNat + 1)).map
                  BitVec.toNat)).tree,
            count := t.count, nextCode := t.nextCode, state := .sym })

/-- One step of the copy (43_lz77_symbols.md R135): the byte at `out_len - dist`, read now, is appended;
the copy ends when none remains; a full output is OutputOverflow, code 8. -/
def Obligations.CopyStep : Prop :=
  ∀ s : State, s.state = .copy → s.host = [] →
    (s.copyRem = 0#9 → step s = .next { s with state := .sym }) ∧
    (s.copyRem ≠ 0#9 → 1 ≤ s.dist.toNat → s.dist.toNat ≤ s.outLen → s.outLen = s.par.outCap →
      step s = .next { s with err := 8#4, state := .error }) ∧
    (s.copyRem ≠ 0#9 → 1 ≤ s.dist.toNat → s.dist.toNat ≤ s.outLen → s.outLen ≠ s.par.outCap →
      s.outMem.wf = true →
      ∃ t, step s = .next t ∧
        t = { s with outLen := s.outLen + 1, copyRem := t.copyRem, outMem := t.outMem } ∧
        t.copyRem.toNat + 1 = s.copyRem.toNat ∧ t.outMem.wf = true ∧
        ∀ a,
          t.outMem.read a =
            if a = s.outLen then s.outMem.read (s.outLen - s.dist.toNat) else s.outMem.read a)

/-- The closed form of the copy (43_lz77_symbols.md R140), overlap included. -/
def Obligations.CopyClosedForm : Prop :=
  ∀ s : State, s.state = .copy → s.host = [] → s.outMem.wf = true →
    1 ≤ s.dist.toNat → s.dist.toNat ≤ s.outLen → s.outLen + s.copyRem.toNat ≤ s.par.outCap →
    ∃ t, core.run s.copyRem.toNat s = .next t ∧
      t = { s with outLen := s.outLen + s.copyRem.toNat, copyRem := 0#9, outMem := t.outMem } ∧
      (∀ k < s.copyRem.toNat,
        t.outMem.read (s.outLen + k) =
          s.outMem.read (s.outLen - s.dist.toNat + k % s.dist.toNat)) ∧
      ∀ a < s.outLen, t.outMem.read a = s.outMem.read a

/-- The body of a stored block (42_block_state_machine.md R113): the `st_rem` bytes at the cursor are
appended in order, and when none remains the block ends (R110: ST_COPY to BLK_END). -/
def Obligations.StoredBodyCopied : Prop :=
  ∀ s : State, s.state = .stCopy → s.host = [] →
    (s.stRem = 0#16 → step s = .next { s with state := .blkEnd }) ∧
    (s.outMem.wf = true → s.inReadable = true → s.bitCursor = 0#3 →
      s.byteCursor + s.stRem.toNat ≤ s.limit → s.outLen + s.stRem.toNat ≤ s.par.outCap →
      ∃ t, core.run s.stRem.toNat s = .next t ∧
        t =
          { s with
            byteCursor := s.byteCursor + s.stRem.toNat, stRem := 0#16,
            outLen := s.outLen + s.stRem.toNat, outMem := t.outMem } ∧
        (∀ k < s.stRem.toNat, t.outMem.read (s.outLen + k) = s.inMem.read (s.byteCursor + k)) ∧
        (∀ a < s.outLen, t.outMem.read a = s.outMem.read a) ∧
        core.run (s.stRem.toNat + 1) s = .next { t with state := .blkEnd })

/-- A read that does not fit in the window faults (40_bit_reader.md R97): TreeError, code 3, inside a
Huffman code, InputUnderrun, code 5, for every raw field and every whole byte of a block after its
header (the header's three bits are in `HeaderStep`). Which field of ST_HDR or DY_COUNTS is read is
said by the model's own field `part` (notes/assumptions/2.md). -/
def Obligations.TruncationFaults : Prop :=
  ∀ s : State, s.host = [] → s.inReadable = true → s.reader.wf →
    ((s.state = .sym ∧ s.llt.walk s.reader.unread = none) ∨
        (s.state = .distSym ∧ s.dt.walk s.reader.unread = none) ∨
        (s.state = .dyLens ∧ s.idx.toNat < s.total.toNat ∧ s.clt.walk s.reader.unread = none) →
      ∃ t, step s = .next t ∧ t.state = .error ∧ t.err = 3#4) ∧
    (∀ n : Nat, 8 * s.limit < s.pos + n →
      ((s.state = .dyCounts ∧ s.part = .first ∧ n = 5) ∨
        (s.state = .dyCounts ∧ s.part = .second ∧ n = 5) ∨
        (s.state = .dyCounts ∧ s.part = .third ∧ n = 4) ∨
        (s.state = .dyClen ∧ n = 3 * (s.hclen.toNat + 4)) ∨
        (s.state = .lenX ∧ 257 ≤ s.sym.toNat ∧ s.sym.toNat ≤ 285 ∧
          n = entry lenExtra (s.sym.toNat - 257)) ∨
        (s.state = .distX ∧ s.dsym.toNat ≤ 29 ∧ n = entry distExtra s.dsym.toNat)) →
      ∃ t, step s = .next t ∧ t.state = .error ∧ t.err = 5#4) ∧
    (∀ n : Nat, s.limit < (s.pos + 7) / 8 + n →
      ((s.state = .stHdr ∧ s.part = .second ∧ n = 2) ∨
        (s.state = .stHdr ∧ s.part = .third ∧ n = 2) ∨
        (s.state = .stCopy ∧ s.stRem ≠ 0#16 ∧ n = 1)) →
      ∃ t, step s = .next t ∧ t.state = .error ∧ t.err = 5#4) ∧
    (∀ (n : Nat) (w : List Bool), s.state = .dyLens → s.idx.toNat < s.total.toNat →
      ((s.clt.walk s.reader.unread = some (16#9, w) ∧ s.idx ≠ 0#9 ∧ n = 2) ∨
        (s.clt.walk s.reader.unread = some (17#9, w) ∧ n = 3) ∨
        (s.clt.walk s.reader.unread = some (18#9, w) ∧ n = 7)) →
      w.length < n →
      ∃ t, step s = .next t ∧ t.state = .error ∧ t.err = 5#4)

/-! The host. -/

/-- START when the block is not BUSY (44_stream_and_wrapper.md R147, R146): the call begins, in mode RAW
with the whole input as its window. The registers R147 writes are its own; that every other working
register, array, arena and memory stays as it was, where 10_state.md R31 treats it as holding no
value, is the model's choice (DESIGN CHOICE, notes/assumptions/7.md), and the field `part` is the
model's own (notes/assumptions/2.md). -/
def Obligations.StartBeginsCall : Prop :=
  ∀ s : State, s.busy = false → s.inLen ≤ s.par.inCap →
    exec (.start .raw) s =
      .next
        { s with
          mode := .raw, err := 0#4, outLen := 0, blocks := 0, bitCursor := 0#3, byteCursor := 0,
          limit := s.inLen, state := .blkHdr, part := .first } ∧
    exec (.start .zlib) s =
      .next
        { s with
          mode := .zlib, err := 0#4, outLen := 0, blocks := 0, bitCursor := 0#3, state := .zhdr,
          part := .first }

/-- The start-up sequence of a call (70_reset_and_hazards.md R187), from any state that is not BUSY: after
the bytes, IN_LEN and one write of MODE with START, the call has begun over those bytes. That each
access takes one step is the model's choice (notes/assumptions/3.md), and so is what `State.begin`
leaves as it was (notes/assumptions/7.md). -/
def Obligations.LoadAndStart : Prop :=
  ∀ (s : State) (m : Mode) (bs : List Byte),
    s.busy = false → s.inMem.wf = true → bs.length ≤ s.par.inCap → s.host = callOps m bs 0 →
    ∃ t, core.run (bs.length + 2) s = .next t ∧
      t =
        State.begin { s with mode := m, inLen := bs.length, inMem := t.inMem, host := [] } ∧
      ∀ a, t.inMem.read a = if a < bs.length then bs.getD a 0#8 else s.inMem.read a

/-- START while BUSY neither restarts nor disturbs the call; MODE is written (10_state.md R16;
44_stream_and_wrapper.md R147; 70_reset_and_hazards.md R189). A launch with `IN_LEN > IN_CAP` is
refused (10_state.md R17). That an ignored START still writes the MODE of its access is read from
these rules (DEDUCED, notes/assumptions/22.md). -/
def Obligations.StartIgnoredOrRefused : Prop :=
  ∀ (s : State) (m : Mode),
    (s.busy = true → exec (.start m) s = .next { s with mode := m }) ∧
    (s.busy = false → s.par.inCap < s.inLen → exec (.start m) s = .refused .launchAboveInCap)

/-- RESET, from any state (70_reset_and_hazards.md R185): every register 10_state.md R30 gives a value
takes it, a running call being abandoned. -/
def Obligations.ResetFromAnyState : Prop :=
  ∀ s : State, ∃ t, exec .reset s = .next t ∧
    t.state = .idle ∧ t.readStatus = 0 ∧ t.readCtrl = 0 ∧ t.mode = .raw ∧ t.inLen = 0 ∧
    t.err = 0#4 ∧ t.outLen = 0 ∧ t.byteCursor = 0 ∧ t.bitCursor = 0#3 ∧ t.limit = 0 ∧
    t.bfinal = false ∧ t.btype = 0#2 ∧ t.blocks = 0 ∧ t.stLen = 0#16 ∧ t.stNlen = 0#16 ∧
    t.stRem = 0#16 ∧ t.hlit = 0#5 ∧ t.hdist = 0#5 ∧ t.hclen = 0#4 ∧ t.total = 0#9 ∧
    t.idx = 0#9 ∧ t.rep = 0#8 ∧ t.sym = 0#9 ∧ t.length = 0#9 ∧ t.dsym = 0#5 ∧ t.dist = 0#16 ∧
    t.copyRem = 0#9

/-- The state after reset, field by field as 10_state.md R30 gives it, and that nothing happens in it
until the host acts. -/
def Obligations.ResetState : Prop :=
  State.reset.state = .idle ∧ State.reset.readStatus = 0 ∧ State.reset.readCtrl = 0 ∧
  State.reset.mode = .raw ∧ State.reset.inLen = 0 ∧ State.reset.err = 0#4 ∧
  State.reset.outLen = 0 ∧ State.reset.byteCursor = 0 ∧ State.reset.bitCursor = 0#3 ∧
  State.reset.limit = 0 ∧ State.reset.bfinal = false ∧ State.reset.btype = 0#2 ∧
  State.reset.blocks = 0 ∧ State.reset.stLen = 0#16 ∧ State.reset.stNlen = 0#16 ∧
  State.reset.stRem = 0#16 ∧ State.reset.hlit = 0#5 ∧ State.reset.hdist = 0#5 ∧
  State.reset.hclen = 0#4 ∧ State.reset.total = 0#9 ∧ State.reset.idx = 0#9 ∧
  State.reset.rep = 0#8 ∧ State.reset.sym = 0#9 ∧ State.reset.length = 0#9 ∧
  State.reset.dsym = 0#5 ∧ State.reset.dist = 0#16 ∧ State.reset.copyRem = 0#9 ∧
  step State.reset = .next State.reset

/-- What a read of a register, or of the result, returns (10_state.md R16 to R20). The queue entry it
takes and `hostData` are the model's own (notes/assumptions/3.md and 4.md). -/
def Obligations.HostReadsReturn : Prop :=
  ∀ (s : State) (ops : List HostOp),
    (s.host = .readReg .ctrl :: ops →
      step s = .next { s with host := ops, hostData := if s.mode = .zlib then 2 else 0 }) ∧
    (s.host = .readReg .inLen :: ops →
      step s = .next { s with host := ops, hostData := s.inLen }) ∧
    (s.host = .readReg .status :: ops →
      step s =
        .next
          { s with
            host := ops,
            hostData :=
              if s.state = .idle then 0
              else if s.state = .done then 2
              else if s.state = .error then 3
              else 1 }) ∧
    (s.host = .readReg .err :: ops → s.busy = false →
      step s = .next { s with host := ops, hostData := s.err.toNat }) ∧
    (s.host = .readReg .outLen :: ops → s.state = .done ∨ s.state = .idle →
      step s = .next { s with host := ops, hostData := s.outLen }) ∧
    (∀ a, s.host = .readOut a :: ops → s.state = .done → a < s.outLen → a < s.par.outCap →
      step s = .next { s with host := ops, hostData := (s.outMem.read a).toNat })

/-- A read whose value the spec leaves unspecified (10_state.md R19, R20) returns some value of the
register's width and changes nothing of the block. The queue entry it takes, `hostData`, and that the
value is drawn by the counter `free` are the model's own (notes/assumptions/3.md, 4.md and 5.md). -/
def Obligations.UnspecifiedReadsReturnSome : Prop :=
  ∀ (s : State) (ops : List HostOp),
    (s.host = .readReg .err :: ops → s.busy = true →
      ∃ v < 16, step s = .next { s with host := ops, hostData := v, free := s.free + 1 }) ∧
    (s.host = .readReg .outLen :: ops → s.busy = true ∨ s.state = .error →
      ∃ v < 2 ^ s.par.wOut,
        step s = .next { s with host := ops, hostData := v, free := s.free + 1 }) ∧
    (∀ a, s.host = .readOut a :: ops → a < s.par.outCap → s.state ≠ .done ∨ s.outLen ≤ a →
      ∃ v < 256, step s = .next { s with host := ops, hostData := v, free := s.free + 1 })

/-- What the writes of the host do while the block is not BUSY, and a write of CTRL without START at any
time (10_state.md R16, R17; 20_memory.md R41). That each is a step that takes the head of the queue
and does nothing else is the model's choice (notes/assumptions/3.md). Two clauses are the model's and
no rule's: a value above IN_CAP leaves its low W_IN bits in IN_LEN (DEDUCED, notes/assumptions/12.md),
and a byte of OUT written by the host is stored (PRESUMED, notes/assumptions/13.md). -/
def Obligations.HostWritesTaken : Prop :=
  ∀ (s : State) (ops : List HostOp),
    (∀ v : BitVec 32, s.host = .writeCtrl v :: ops → v.getLsbD 0 = false →
      step s =
        .next { s with host := ops, mode := if v.getLsbD 1 = true then .zlib else .raw }) ∧
    (∀ n, s.host = .writeInLen n :: ops → s.busy = false → n ≤ s.par.inCap →
      step s = .next { s with host := ops, inLen := n }) ∧
    (∀ n, s.host = .writeInLen n :: ops → s.busy = false → s.par.inCap < n →
      step s = .next { s with host := ops, inLen := n % 2 ^ s.par.wIn }) ∧
    (∀ a v, s.host = .writeIn a v :: ops → s.busy = false → a < s.par.inCap →
      s.inMem.wf = true →
      ∃ t, step s = .next t ∧ t = { s with host := ops, inMem := t.inMem } ∧
        t.inMem.wf = true ∧ ∀ b, t.inMem.read b = if b = a then v else s.inMem.read b) ∧
    (∀ a v, s.host = .writeOut a v :: ops → s.busy = false → a < s.par.outCap →
      s.outMem.wf = true →
      ∃ t, step s = .next t ∧ t = { s with host := ops, outMem := t.outMem } ∧
        t.outMem.wf = true ∧ ∀ b, t.outMem.read b = if b = a then v else s.outMem.read b)

/-- Where a host access stops the model: a write to IN, IN_LEN or OUT while BUSY, which
70_reset_and_hazards.md R189 puts outside the model, is refused (notes/assumptions/13.md); an access
to an address outside IN or OUT is a fault. 20_memory.md R41 and R42 give only the ranges: that such
an access stops the model is the model's reading (DEDUCED, notes/assumptions/18.md), that the host
may write OUT at all while not BUSY is its own (PRESUMED, notes/assumptions/13.md), and so is the
queue the access is taken from (notes/assumptions/3.md). -/
def Obligations.HostAccessesStopped : Prop :=
  ∀ (s : State) (ops : List HostOp) (a n : Nat) (v : Byte),
    (s.busy = true →
      s.host = .writeIn a v :: ops ∨ s.host = .writeInLen n :: ops ∨
          s.host = .writeOut a v :: ops →
      step s = .refused .hostWriteWhileBusy) ∧
    (s.busy = false → s.host = .writeIn a v :: ops → s.par.inCap ≤ a →
      step s = .fault (.hostAddress a)) ∧
    (s.busy = false → s.host = .writeOut a v :: ops → s.par.outCap ≤ a →
      step s = .fault (.hostAddress a)) ∧
    (s.host = .readOut a :: ops → s.par.outCap ≤ a → step s = .fault (.hostAddress a))

/-- IDLE, DONE and ERROR are states in which nothing happens (42_block_state_machine.md R110;
60_exceptions.md R176, R181), so a step without an access of the host changes nothing (DEDUCED,
notes/assumptions/21.md), and DONE or ERROR is what `done_o` shows (60_exceptions.md R177). -/
def Obligations.RestStates : Prop :=
  ∀ s : State,
    (s.state = .idle ∨ s.state = .done ∨ s.state = .error → s.host = [] → step s = .next s) ∧
    (s.doneO = true ↔ s.state = .done ∨ s.state = .error)

/-! The whole machine. -/

/-- `raise K` (60_exceptions.md R163): two writes in one step, nothing else, with the ten codes of
R161; ERROR is entered only while BUSY, and left only by a START or a reset. That these two stand at
the head of a queue is the model's own (notes/assumptions/3.md). -/
def Obligations.FaultEntryAndExit : Prop :=
  (∀ (s : State) (k : ErrKind), s.raise k = { s with err := errCode k, state := .error }) ∧
  [errCode .illegalBlockFormat, errCode .uncompressedLengthMismatch, errCode .treeError,
      errCode .illegalSmallTree, errCode .inputUnderrun, errCode .distanceTooFar,
      errCode .missingFinalBlock, errCode .outputOverflow, errCode .repeatWithoutPrevious,
      errCode .codeLengthOverrun] =
    [1#4, 2#4, 3#4, 4#4, 5#4, 6#4, 7#4, 8#4, 9#4, 10#4] ∧
  (∀ s t : State, step s = .next t → t.state = .error → s.state ≠ .error → s.busy = true) ∧
  (∀ s t : State, step s = .next t → s.state = .error → t.state ≠ .error →
    ∃ ops, s.host = .assertReset :: ops ∨
      ∃ v : BitVec 32, s.host = .writeCtrl v :: ops ∧ v.getLsbD 0 = true)

/-- DONE is reached only at the end of a block with `bfinal = 1` (44_stream_and_wrapper.md R152). -/
def Obligations.DoneOnlyAfterFinalBlock : Prop :=
  ∀ s t : State, step s = .next t → t.state = .done → s.state ≠ .done →
    s.state = .blkEnd ∧ s.bfinal = true ∧ t.outLen = s.outLen ∧ t.err = s.err ∧
      t.outMem = s.outMem

/-- No instruction stops the model but a launch with `IN_LEN > IN_CAP` (10_state.md R17). -/
def Obligations.ExecAlwaysCompletes : Prop :=
  ∀ (i : Instr) (s : State),
    (∃ t, exec i s = .next t) ∨
      ((∃ m, i = .start m) ∧ s.busy = false ∧ s.par.inCap < s.inLen ∧
        exec i s = .refused .launchAboveInCap)

/-- The frame of every instruction: what it leaves unchanged when it gives a next state. No element
writes IN, IN_LEN, MODE, the block count, the trees or their scratch; LIT and BYTE alone change OUT,
at `out_len` alone. That RESET and START leave the memories and arrays is the model's choice (DESIGN
CHOICE, notes/assumptions/7.md), and so is that RESET keeps the parameters, the host's queue,
`hostData` and the counter `free` (DESIGN CHOICE, notes/assumptions/24.md). -/
def Obligations.InstructionFrame : Prop :=
  ∀ (i : Instr) (s t : State), exec i s = .next t → s.outMem.wf = true →
    t.par = s.par ∧ t.inMem = s.inMem ∧ t.host = s.host ∧ t.hostData = s.hostData ∧
    t.free = s.free ∧ t.clt = s.clt ∧ t.llt = s.llt ∧ t.dt = s.dt ∧ t.count = s.count ∧
    t.nextCode = s.nextCode ∧
    (∀ a, i.appends = false ∨ a ≠ s.outLen → t.outMem.read a = s.outMem.read a) ∧
    (i ≠ .reset → t.inLen = s.inLen) ∧
    (i ≠ .reset → (∀ m, i ≠ .start m) →
      t.mode = s.mode ∧ t.blocks = s.blocks ∧
        (i.appends = false → t.outLen = s.outLen) ∧
        ((∀ b0 b1, i ≠ .zhdr b0 b1) → i ≠ .adler → t.limit = s.limit) ∧
        ((∀ b0 b1, i ≠ .zhdr b0 b1) → i ≠ .adler → i ≠ .dictid → i ≠ .pad → t.pos = s.pos))

/-- The stream can change nothing outside the block's own work (60_exceptions.md R178; 20_memory.md R42,
R54): a step of a running call leaves IN, the host's registers but ERR, and every byte of OUT but
the one at `out_len`, and appends at most one byte. -/
def Obligations.RunningCallWritesOnlyAtOutLen : Prop :=
  ∀ s t : State, s.busy = true → s.host = [] → s.outMem.wf = true → step s = .next t →
    t.inMem = s.inMem ∧ t.inLen = s.inLen ∧ t.mode = s.mode ∧ t.par = s.par ∧ t.host = [] ∧
    t.hostData = s.hostData ∧ (t.state ≠ .error → t.err = s.err) ∧
    (t.outLen = s.outLen ∧ (∀ a, t.outMem.read a = s.outMem.read a) ∨
      t.outLen = s.outLen + 1 ∧ ∀ a, a ≠ s.outLen → t.outMem.read a = s.outMem.read a)

/-- The stream position only grows, within a window that stays (10_state.md R12). -/
def Obligations.PositionOnlyGrows : Prop :=
  ∀ s t : State, s.busy = true → s.state ≠ .zhdr → s.host = [] → s.reader.wf →
    step s = .next t → s.pos ≤ t.pos ∧ t.limit = s.limit ∧ t.pos ≤ 8 * s.limit

/-- The reset state meets the invariant `State.Inv`, by the registers' values of 10_state.md R30 and by
what the model chose for the rest: both memories empty (DESIGN CHOICE, notes/assumptions/6.md), the
arrays at their sizes, and, for `State.TreesSound`, the three arenas with no record in use (DESIGN
CHOICE, notes/assumptions/8.md); R30 leaves memories, arrays and arenas unspecified. -/
def Obligations.InvAtReset : Prop := State.reset.Inv ∧ State.reset.TreesSound

/-- Every step keeps the invariant `State.Inv`: both memories in canonical form, the cursor in its window
(10_state.md R11), the output within its capacity (43_lz77_symbols.md R138), the blocks within the
cap (44_stream_and_wrapper.md R149), ERR one of the ten codes exactly in ERROR (60_exceptions.md
R161, R163), the registers in the ranges of 10_state.md R22 and R23. Of a START step this is said of
the working registers and arrays kept from before it, and of a RESET step of the arrays and memories
kept, where 10_state.md R30 and R31 leave them unspecified: that they are kept is the model's choice
(DESIGN CHOICE, notes/assumptions/7.md). -/
def Obligations.InvKeptByStep : Prop :=
  ∀ s t : State, s.Inv → step s = .next t → t.Inv

/-- Every step keeps the trees within their alphabets and arenas (41_huffman_decoder.md R101, R107), and
so no step ends in IllegalSmallTree, code 4 (42_block_state_machine.md R123). Of a RESET or START step
this is said of the arenas kept from before it, where 10_state.md R30 and R31 leave them unspecified:
that they are kept is the model's choice (DESIGN CHOICE, notes/assumptions/7.md), and so is an arena
as a tree of records whose number is its size (DESIGN CHOICE, notes/assumptions/9.md). -/
def Obligations.SmallTreeFaultCannotOccur : Prop :=
  ∀ s t : State, s.Inv → s.TreesSound → step s = .next t →
    t.TreesSound ∧ (s.err ≠ 4#4 → t.err ≠ 4#4)

/-- Every call ends (70_reset_and_hazards.md R192): from every state of a running call, after finitely
many steps the block is in DONE or ERROR, and no step on the way stops the model. -/
def Obligations.EveryCallEnds : Prop :=
  ∀ s : State, s.Inv → s.busy = true → s.host = [] →
    ∃ k t, core.run k s = .next t ∧ t.doneO = true

/-- What a call gives depends on `MODE`, `IN_LEN`, the valid input bytes and the parameters only
(10_state.md R31; 44_stream_and_wrapper.md R154): two calls that agree on these agree, at every step,
on STATUS and on the result (the error kind after ERROR, the output bytes after DONE), whatever
earlier calls left behind. -/
def Obligations.CallDependsOnInputOnly : Prop :=
  ∀ s t : State, s.Inv → t.Inv → s.busy = false → t.busy = false → s.host = [] → t.host = [] →
    s.par = t.par → s.mode = t.mode → s.inLen = t.inLen → s.inLen ≤ s.par.inCap →
    (∀ a < s.inLen, s.inMem.read a = t.inMem.read a) →
    ∀ k, ∃ s' t',
      core.run k s.begin = .next s' ∧ core.run k t.begin = .next t' ∧ s'.run = t'.run ∧
      s'.result = t'.result
end

