-- ==== Sys2Proof/Laws/BitReader.lean ====
section
/-! SUPPORT. What the reads of the Bit Reader do to the reader. -/

namespace Sys2Proof

/-- A reader reached by reading: the same window of the same memory, no bit further back, the
invariant of 10_state.md R11 kept. -/
structure Reader.Later (r r' : Reader) : Prop where
  mem : r'.mem = r.mem
  limit : r'.limit = r.limit
  pos : r.pos ≤ r'.pos
  wf : r.wf → r'.wf

theorem Reader.Later.refl (r : Reader) : r.Later r := ⟨rfl, rfl, le_rfl, id⟩

theorem Reader.Later.trans {a b c : Reader} (h : a.Later b) (k : b.Later c) : a.Later c :=
  ⟨k.mem.trans h.mem, k.limit.trans h.limit, le_trans h.pos k.pos, fun w => k.wf (h.wf w)⟩

/-- The reader a read ends with, whether it gives a value or raises. -/
def Read.reader {α : Type} : Read α → Reader
  | .ok _ r => r
  | .raise _ r => r

@[simp] theorem Read.bind_ok {α β : Type} (a : α) (r : Reader) (f : α → Reader → Read β) :
    (Read.ok a r).bind f = f a r := rfl

@[simp] theorem Read.bind_raise {α β : Type} (k : ErrKind) (r : Reader) (f : α → Reader → Read β) :
    (Read.raise k r : Read α).bind f = .raise k r := rfl

/-- A read followed by another gives a value only if both do. -/
theorem Read.bind_eq_ok {α β : Type} {x : Read α} {f : α → Reader → Read β} {b : β} {r' : Reader}
    (h : x.bind f = .ok b r') : ∃ a r, x = .ok a r ∧ f a r = .ok b r' := by
  cases x with
  | ok a r => exact ⟨a, r, rfl, h⟩
  | raise k r => cases h

/-- One read after another only moves the reader on. -/
theorem Read.bind_later {α β : Type} {r : Reader} {x : Read α} {f : α → Reader → Read β}
    (hx : r.Later x.reader) (hf : ∀ a (r' : Reader), r'.Later (f a r').reader) :
    r.Later (x.bind f).reader := by
  cases x with
  | ok a r' => exact hx.trans (hf a r')
  | raise k r' => exact hx

namespace Reader

theorem bitCursor_lt (r : Reader) : r.bitCursor.toNat < 8 := r.bitCursor.isLt

/-- `next_bit` where the window is not exhausted (40_bit_reader.md R91). -/
theorem nextBit_ok {r : Reader} (h : r.byteCursor < r.limit) :
    ∃ r', r.nextBit = .ok (r.bitAt r.pos) r' ∧ r'.pos = r.pos + 1 ∧ r'.mem = r.mem ∧
      r'.limit = r.limit ∧ r'.wf := by
  have hlt := r.bitCursor_lt
  have hdiv : r.pos / 8 = r.byteCursor := by unfold pos; omega
  have hmod : r.pos % 8 = r.bitCursor.toNat := by unfold pos; omega
  unfold nextBit
  rw [if_neg (by omega)]
  simp only [bitAt, hdiv, hmod]
  split
  · rename_i h7
    refine ⟨_, rfl, ?_, rfl, rfl, ?_⟩
    · simp [pos, h7]; omega
    · simp [wf]; omega
  · rename_i h7
    have hne : r.bitCursor.toNat ≠ 7 := fun e => h7 (BitVec.eq_of_toNat_eq e)
    have hadd : (r.bitCursor + 1#3).toNat = r.bitCursor.toNat + 1 := by
      rw [BitVec.toNat_add]; simp; omega
    refine ⟨_, rfl, ?_, rfl, rfl, ?_⟩
    · simp only [pos, hadd]; omega
    · simp [wf]; omega

/-- `next_bit` where the window is exhausted changes nothing (40_bit_reader.md R97). -/
theorem nextBit_underrun {r : Reader} (h : r.limit ≤ r.byteCursor) :
    r.nextBit = .raise .inputUnderrun r := by simp [nextBit, h]

theorem nextBit_later (r : Reader) : r.Later r.nextBit.reader := by
  by_cases h : r.byteCursor < r.limit
  · obtain ⟨r', e, hp, hm, hl, hw⟩ := nextBit_ok h
    rw [e]
    exact ⟨hm, hl, by simp only [Read.reader]; omega, fun _ => hw⟩
  · rw [nextBit_underrun (by omega)]
    exact Later.refl r

/-- `next_bit` raises nothing but InputUnderrun. -/
theorem nextBit_raise {r r' : Reader} {k : ErrKind} (h : r.nextBit = .raise k r') :
    k = .inputUnderrun ∧ r' = r := by
  unfold nextBit at h
  split at h
  · cases h; exact ⟨rfl, rfl⟩
  · dsimp only at h
    split at h <;> cases h

theorem nextBits_later : ∀ (n : Nat) (r : Reader), r.Later (r.nextBits n).reader
  | 0, r => Later.refl r
  | n + 1, r =>
    Read.bind_later (nextBit_later r) fun _ r' =>
      Read.bind_later (nextBits_later n r') fun _ r'' => Later.refl r''

theorem align_later (r : Reader) : r.Later r.align := by
  have hlt := r.bitCursor_lt
  unfold align
  split
  · exact Later.refl r
  · rename_i h
    refine ⟨rfl, rfl, by simp [pos]; omega, fun w => ?_⟩
    have := w.2 h
    exact ⟨by simp; omega, by simp⟩

theorem align_bitCursor (r : Reader) : r.align.bitCursor = 0#3 := by
  unfold align; split <;> simp_all

theorem align_of_aligned {r : Reader} (h : r.bitCursor = 0#3) : r.align = r := by simp [align, h]

/-- `align` twice is `align` once (40_bit_reader.md R93: with `bit_cursor = 0` it does nothing). -/
theorem align_align (r : Reader) : r.align.align = r.align := align_of_aligned r.align_bitCursor

theorem nextByte_later (r : Reader) : r.Later r.nextByte.reader := by
  unfold nextByte
  refine (align_later r).trans ?_
  dsimp only
  split
  · exact Later.refl _
  · refine ⟨rfl, rfl, by simp [Read.reader, pos], fun _ => ?_⟩
    simp [Read.reader, wf, align_bitCursor]; omega

theorem nextBytesAsNumber_later :
    ∀ (n : Nat) (r : Reader), r.Later (r.nextBytesAsNumber n).reader
  | 0, r => Later.refl r
  | n + 1, r =>
    Read.bind_later (nextByte_later r) fun _ r' =>
      Read.bind_later (nextBytesAsNumber_later n r') fun _ r'' => Later.refl r''

end Reader

end Sys2Proof
end

