-- ==== Sys2Proof/Laws/Huffman.lean ====
section
/-! SUPPORT. What decoding a symbol does to the reader, and the constant fixed tree. -/

namespace Sys2Proof

namespace Tree

theorem arrive_later : ∀ (t : Tree) (r : Reader), r.Later (t.arrive r).reader
  | nil, r => Reader.Later.refl r
  | node (some s) _ _, r => Reader.Later.refl r
  | node none c0 c1, r => by
    have h := Reader.nextBit_later r
    unfold arrive
    cases e : r.nextBit with
    | raise k r' => rw [e] at h; exact h
    | ok b r' =>
      rw [e] at h
      cases b
      · exact h.trans (arrive_later c0 r')
      · exact h.trans (arrive_later c1 r')

theorem decodeSymbol_later (t : Tree) (r : Reader) : r.Later (t.decodeSymbol r).reader :=
  arrive_later t.asRoot r

/-- A walk from a node that is no leaf consumes at least one bit. -/
theorem arrive_internal_pos {c0 c1 : Tree} {r r' : Reader} {s : BitVec 9}
    (h : (node none c0 c1).arrive r = .ok s r') : r.pos < r'.pos := by
  unfold arrive at h
  by_cases hl : r.byteCursor < r.limit
  · obtain ⟨r1, e, hp, -⟩ := Reader.nextBit_ok hl
    rw [e] at h
    dsimp only at h
    split at h
    · have := (arrive_later c1 r1).pos
      rw [h] at this
      simp only [Read.reader] at this; omega
    · have := (arrive_later c0 r1).pos
      rw [h] at this
      simp only [Read.reader] at this; omega
  · rw [Reader.nextBit_underrun (by omega)] at h
    cases h

/-- Every successful decode consumes at least one bit (41_huffman_decoder.md R105). -/
theorem decodeSymbol_pos {t : Tree} {r r' : Reader} {s : BitVec 9}
    (h : t.decodeSymbol r = .ok s r') : r.pos < r'.pos := by
  unfold decodeSymbol at h
  cases t with
  | nil => exact arrive_internal_pos h
  | node x c0 c1 => exact arrive_internal_pos h

theorem arrive_raise : ∀ {t : Tree} {r r' : Reader} {k : ErrKind},
    t.arrive r = .raise k r' → k = .treeError
  | nil, _, _, _, h => by cases h; rfl
  | node (some s) _ _, _, _, _, h => by cases h
  | node none c0 c1, r, r', k, h => by
    unfold arrive at h
    cases e : r.nextBit with
    | raise k' r1 => rw [e] at h; cases h; rfl
    | ok b r1 =>
      rw [e] at h
      cases b
      · exact arrive_raise (t := c0) h
      · exact arrive_raise (t := c1) h

/-- `decode_symbol` raises nothing but TreeError (41_huffman_decoder.md R105). -/
theorem decodeSymbol_raise {t : Tree} {r r' : Reader} {k : ErrKind}
    (h : t.decodeSymbol r = .raise k r') : k = .treeError := arrive_raise h

end Tree

/-- The constant literal/length tree is the one `build_tree` gives (92_eei_decisions.md D29). -/
theorem fixedLlRom_eq : fixedLlRom = fixedLlTree := by decide +kernel

end Sys2Proof
end

