-- ==== Sys2Proof/Laws/Decode.lean ====
section
/-! SUPPORT. What decoding an element does to the reader. -/

namespace Sys2Proof

theorem rawField_later (n : Nat) (f : Nat → Instr) (r : Reader) :
    r.Later (rawField n f r).reader :=
  Read.bind_later (Reader.nextBits_later n r) fun _ r' => Reader.Later.refl r'

theorem decodeHeader_later (r : Reader) : r.Later (decodeHeader r).reader := by
  refine Read.bind_later (Reader.nextBit_later r) fun f r' =>
    Read.bind_later (Reader.nextBits_later 2 r') fun t r'' => ?_
  split <;> exact Reader.Later.refl r''

theorem decodeClLens_later : ∀ (n : Nat) (r : Reader), r.Later (decodeClLens n r).reader
  | 0, r => Reader.Later.refl r
  | n + 1, r =>
    Read.bind_later (Reader.nextBits_later 3 r) fun _ r' =>
      Read.bind_later (decodeClLens_later n r') fun _ r'' => Reader.Later.refl r''

theorem clElement_later (first : Bool) (s : BitVec 9) (r : Reader) :
    r.Later (clElement first s r).reader := by
  unfold clElement
  split
  · exact Reader.Later.refl r
  split
  · split
    · exact Reader.Later.refl r
    · exact rawField_later ..
  split
  · exact rawField_later ..
  split
  · exact rawField_later ..
  · exact Reader.Later.refl r

theorem llElement_later (s : Nat) (r : Reader) : r.Later (llElement s r).reader := by
  unfold llElement
  split
  · exact Reader.Later.refl r
  split
  · exact Reader.Later.refl r
  split
  · exact rawField_later ..
  split
  · exact Reader.Later.refl r
  split <;> exact Reader.Later.refl r

theorem dElement_later (d : Nat) (r : Reader) : r.Later (dElement d r).reader := by
  unfold dElement
  split
  · exact rawField_later ..
  split
  · exact Reader.Later.refl r
  split <;> exact Reader.Later.refl r

/-- Decoding only moves the reader on, in the same window of the same memory. -/
theorem decode_later (e : Expect) (r : Reader) : r.Later (decode e r).reader := by
  cases e with
  | header => exact decodeHeader_later r
  | pad => exact Reader.align_later r
  | len16 =>
    exact Read.bind_later (Reader.nextBytesAsNumber_later 2 r) fun _ r' => Reader.Later.refl r'
  | nlen16 =>
    exact Read.bind_later (Reader.nextBytesAsNumber_later 2 r) fun _ r' => Reader.Later.refl r'
  | byte => exact Read.bind_later (Reader.nextByte_later r) fun _ r' => Reader.Later.refl r'
  | hlit => exact rawField_later ..
  | hdist => exact rawField_later ..
  | hclen => exact rawField_later ..
  | cllen n => exact Read.bind_later (decodeClLens_later n r) fun _ r' => Reader.Later.refl r'
  | clSym t first =>
    exact Read.bind_later (t.decodeSymbol_later r) fun s r' => clElement_later first s r'
  | llSym t => exact Read.bind_later (t.decodeSymbol_later r) fun s r' => llElement_later _ r'
  | lenX s => exact llElement_later s r
  | dSym t => exact Read.bind_later (t.decodeSymbol_later r) fun s r' => dElement_later _ r'
  | distX d => exact dElement_later d r

end Sys2Proof
end

