-- ==== Sys2Proof/Laws/Mem.lean ====
section
/-! SUPPORT. The laws of a byte space: a read after a write, and the canonical form kept. -/

namespace Sys2Proof.Mem

theorem sortedFrom_mono {lo lo' : Nat} (h : lo' ≤ lo) :
    ∀ {m : Mem}, sortedFrom lo m = true → sortedFrom lo' m = true
  | [], _ => rfl
  | (k, v) :: m, hm => by
    simp only [sortedFrom, Bool.and_eq_true, decide_eq_true_eq] at hm ⊢
    exact ⟨⟨le_trans h hm.1.1, hm.1.2⟩, hm.2⟩

/-- An address below every listed one reads as blank. -/
theorem read_below {a lo : Nat} (h : a < lo) :
    ∀ {m : Mem}, sortedFrom lo m = true → read m a = blank
  | [], _ => rfl
  | (k, v) :: m, hm => by
    simp only [sortedFrom, Bool.and_eq_true, decide_eq_true_eq] at hm
    have hk : a ≠ k := by omega
    simp only [read, hk, if_false]
    exact read_below (by omega) hm.2

theorem insertCell_sorted {a lo : Nat} {v : Byte} (hv : v ≠ blank) (ha : lo ≤ a) :
    ∀ {m : Mem}, sortedFrom lo m = true → sortedFrom lo (insertCell m a v) = true
  | [], _ => by simp [insertCell, sortedFrom, hv, ha]
  | (k, x) :: m, hm => by
    simp only [sortedFrom, Bool.and_eq_true, decide_eq_true_eq] at hm
    simp only [insertCell]
    split
    · rename_i h
      simp only [sortedFrom, Bool.and_eq_true, decide_eq_true_eq]
      exact ⟨⟨ha, hv⟩, ⟨⟨by omega, hm.1.2⟩, hm.2⟩⟩
    · split
      · rename_i _ h
        subst h
        simp only [sortedFrom, Bool.and_eq_true, decide_eq_true_eq]
        exact ⟨⟨ha, hv⟩, hm.2⟩
      · rename_i h1 h2
        simp only [sortedFrom, Bool.and_eq_true, decide_eq_true_eq]
        exact ⟨hm.1, insertCell_sorted hv (by omega) hm.2⟩

theorem erase_sorted {a lo : Nat} :
    ∀ {m : Mem}, sortedFrom lo m = true → sortedFrom lo (erase m a) = true
  | [], _ => rfl
  | (k, x) :: m, hm => by
    simp only [sortedFrom, Bool.and_eq_true, decide_eq_true_eq] at hm
    simp only [erase]
    split
    · exact sortedFrom_mono (by omega) hm.2
    · simp only [sortedFrom, Bool.and_eq_true, decide_eq_true_eq]
      exact ⟨hm.1, erase_sorted hm.2⟩

/-- A write keeps the canonical form. -/
theorem write_wf {m : Mem} (a : Nat) (v : Byte) (h : m.wf = true) : (m.write a v).wf = true := by
  unfold write wf at *
  split
  · exact erase_sorted h
  · rename_i hv
    exact insertCell_sorted hv (Nat.zero_le a) h

/-- The bytes the host loads keep the canonical form. -/
theorem load_wf : ∀ {m : Mem} (a : Nat) (bs : List Byte), m.wf = true → (load m a bs).wf = true
  | _, _, [], h => h
  | _, a, b :: bs, h => load_wf (a + 1) bs (write_wf a b h)

theorem read_insertCell (a b : Nat) (v : Byte) :
    ∀ (m : Mem), read (insertCell m a v) b = if b = a then v else read m b
  | [] => by simp [insertCell, read]
  | (k, x) :: m => by
    simp only [insertCell]
    split
    · simp only [read]
    · split
      · rename_i _ h
        subst h
        simp only [read]
        split <;> rfl
      · rename_i h1 h2
        simp only [read, read_insertCell a b v m]
        by_cases hb : b = k
        · subst hb
          have : b ≠ a := fun h => h2 h.symm
          simp [this]
        · simp [hb]

theorem read_erase {a lo : Nat} (b : Nat) :
    ∀ {m : Mem}, sortedFrom lo m = true → read (erase m a) b = if b = a then blank else read m b
  | [], _ => by simp [erase, read]
  | (k, x) :: m, hm => by
    simp only [sortedFrom, Bool.and_eq_true, decide_eq_true_eq] at hm
    simp only [erase]
    split
    · rename_i h
      subst h
      by_cases hb : b = a
      · subst hb
        simp [read_below (Nat.lt_succ_self b) hm.2]
      · simp [read, hb]
    · rename_i h
      simp only [read, read_erase b hm.2]
      by_cases hb : b = k
      · subst hb
        have : b ≠ a := fun h' => h h'.symm
        simp [this]
      · simp [hb]

/-- What every address reads as after a write. -/
theorem read_write {m : Mem} (a b : Nat) (v : Byte) (h : m.wf = true) :
    (m.write a v).read b = if b = a then v else m.read b := by
  unfold write
  split
  · rename_i hv
    rw [read_erase b h, hv]
  · exact read_insertCell a b v m

/-- A read after a write to the same place. -/
theorem read_write_self {m : Mem} (a : Nat) (v : Byte) (h : m.wf = true) :
    (m.write a v).read a = v := by simp [read_write a a v h]

/-- A write leaves every other place alone. -/
theorem read_write_other {m : Mem} {a b : Nat} (v : Byte) (h : m.wf = true) (hb : b ≠ a) :
    (m.write a v).read b = m.read b := by simp [read_write a b v h, hb]

end Sys2Proof.Mem
end

