-- ==== Sys2Proof/Laws/State.lean ====
section
/-! SUPPORT. One lemma per field per named update of the state. -/

namespace Sys2Proof.Machine

@[simp] theorem State.raise_par (s : State) (k : ErrKind) : (s.raise k).par = s.par := rfl
@[simp] theorem State.raise_mode (s : State) (k : ErrKind) : (s.raise k).mode = s.mode := rfl
@[simp] theorem State.raise_inLen (s : State) (k : ErrKind) : (s.raise k).inLen = s.inLen := rfl
@[simp] theorem State.raise_err (s : State) (k : ErrKind) : (s.raise k).err = errCode k := rfl
@[simp] theorem State.raise_state (s : State) (k : ErrKind) : (s.raise k).state = .error := rfl
@[simp] theorem State.raise_part (s : State) (k : ErrKind) : (s.raise k).part = s.part := rfl
@[simp] theorem State.raise_byteCursor (s : State) (k : ErrKind) : (s.raise k).byteCursor = s.byteCursor := rfl
@[simp] theorem State.raise_bitCursor (s : State) (k : ErrKind) : (s.raise k).bitCursor = s.bitCursor := rfl
@[simp] theorem State.raise_limit (s : State) (k : ErrKind) : (s.raise k).limit = s.limit := rfl
@[simp] theorem State.raise_bfinal (s : State) (k : ErrKind) : (s.raise k).bfinal = s.bfinal := rfl
@[simp] theorem State.raise_btype (s : State) (k : ErrKind) : (s.raise k).btype = s.btype := rfl
@[simp] theorem State.raise_blocks (s : State) (k : ErrKind) : (s.raise k).blocks = s.blocks := rfl
@[simp] theorem State.raise_stLen (s : State) (k : ErrKind) : (s.raise k).stLen = s.stLen := rfl
@[simp] theorem State.raise_stNlen (s : State) (k : ErrKind) : (s.raise k).stNlen = s.stNlen := rfl
@[simp] theorem State.raise_stRem (s : State) (k : ErrKind) : (s.raise k).stRem = s.stRem := rfl
@[simp] theorem State.raise_hlit (s : State) (k : ErrKind) : (s.raise k).hlit = s.hlit := rfl
@[simp] theorem State.raise_hdist (s : State) (k : ErrKind) : (s.raise k).hdist = s.hdist := rfl
@[simp] theorem State.raise_hclen (s : State) (k : ErrKind) : (s.raise k).hclen = s.hclen := rfl
@[simp] theorem State.raise_clLen (s : State) (k : ErrKind) : (s.raise k).clLen = s.clLen := rfl
@[simp] theorem State.raise_lens (s : State) (k : ErrKind) : (s.raise k).lens = s.lens := rfl
@[simp] theorem State.raise_total (s : State) (k : ErrKind) : (s.raise k).total = s.total := rfl
@[simp] theorem State.raise_idx (s : State) (k : ErrKind) : (s.raise k).idx = s.idx := rfl
@[simp] theorem State.raise_rep (s : State) (k : ErrKind) : (s.raise k).rep = s.rep := rfl
@[simp] theorem State.raise_sym (s : State) (k : ErrKind) : (s.raise k).sym = s.sym := rfl
@[simp] theorem State.raise_length (s : State) (k : ErrKind) : (s.raise k).length = s.length := rfl
@[simp] theorem State.raise_dsym (s : State) (k : ErrKind) : (s.raise k).dsym = s.dsym := rfl
@[simp] theorem State.raise_dist (s : State) (k : ErrKind) : (s.raise k).dist = s.dist := rfl
@[simp] theorem State.raise_copyRem (s : State) (k : ErrKind) : (s.raise k).copyRem = s.copyRem := rfl
@[simp] theorem State.raise_outLen (s : State) (k : ErrKind) : (s.raise k).outLen = s.outLen := rfl
@[simp] theorem State.raise_clt (s : State) (k : ErrKind) : (s.raise k).clt = s.clt := rfl
@[simp] theorem State.raise_llt (s : State) (k : ErrKind) : (s.raise k).llt = s.llt := rfl
@[simp] theorem State.raise_dt (s : State) (k : ErrKind) : (s.raise k).dt = s.dt := rfl
@[simp] theorem State.raise_count (s : State) (k : ErrKind) : (s.raise k).count = s.count := rfl
@[simp] theorem State.raise_nextCode (s : State) (k : ErrKind) : (s.raise k).nextCode = s.nextCode := rfl
@[simp] theorem State.raise_inMem (s : State) (k : ErrKind) : (s.raise k).inMem = s.inMem := rfl
@[simp] theorem State.raise_outMem (s : State) (k : ErrKind) : (s.raise k).outMem = s.outMem := rfl
@[simp] theorem State.raise_host (s : State) (k : ErrKind) : (s.raise k).host = s.host := rfl
@[simp] theorem State.raise_hostData (s : State) (k : ErrKind) : (s.raise k).hostData = s.hostData := rfl
@[simp] theorem State.raise_free (s : State) (k : ErrKind) : (s.raise k).free = s.free := rfl

@[simp] theorem State.withReader_par (s : State) (r : Reader) : (s.withReader r).par = s.par := rfl
@[simp] theorem State.withReader_mode (s : State) (r : Reader) : (s.withReader r).mode = s.mode := rfl
@[simp] theorem State.withReader_inLen (s : State) (r : Reader) : (s.withReader r).inLen = s.inLen := rfl
@[simp] theorem State.withReader_err (s : State) (r : Reader) : (s.withReader r).err = s.err := rfl
@[simp] theorem State.withReader_state (s : State) (r : Reader) : (s.withReader r).state = s.state := rfl
@[simp] theorem State.withReader_part (s : State) (r : Reader) : (s.withReader r).part = s.part := rfl
@[simp] theorem State.withReader_byteCursor (s : State) (r : Reader) : (s.withReader r).byteCursor = r.byteCursor := rfl
@[simp] theorem State.withReader_bitCursor (s : State) (r : Reader) : (s.withReader r).bitCursor = r.bitCursor := rfl
@[simp] theorem State.withReader_limit (s : State) (r : Reader) : (s.withReader r).limit = s.limit := rfl
@[simp] theorem State.withReader_bfinal (s : State) (r : Reader) : (s.withReader r).bfinal = s.bfinal := rfl
@[simp] theorem State.withReader_btype (s : State) (r : Reader) : (s.withReader r).btype = s.btype := rfl
@[simp] theorem State.withReader_blocks (s : State) (r : Reader) : (s.withReader r).blocks = s.blocks := rfl
@[simp] theorem State.withReader_stLen (s : State) (r : Reader) : (s.withReader r).stLen = s.stLen := rfl
@[simp] theorem State.withReader_stNlen (s : State) (r : Reader) : (s.withReader r).stNlen = s.stNlen := rfl
@[simp] theorem State.withReader_stRem (s : State) (r : Reader) : (s.withReader r).stRem = s.stRem := rfl
@[simp] theorem State.withReader_hlit (s : State) (r : Reader) : (s.withReader r).hlit = s.hlit := rfl
@[simp] theorem State.withReader_hdist (s : State) (r : Reader) : (s.withReader r).hdist = s.hdist := rfl
@[simp] theorem State.withReader_hclen (s : State) (r : Reader) : (s.withReader r).hclen = s.hclen := rfl
@[simp] theorem State.withReader_clLen (s : State) (r : Reader) : (s.withReader r).clLen = s.clLen := rfl
@[simp] theorem State.withReader_lens (s : State) (r : Reader) : (s.withReader r).lens = s.lens := rfl
@[simp] theorem State.withReader_total (s : State) (r : Reader) : (s.withReader r).total = s.total := rfl
@[simp] theorem State.withReader_idx (s : State) (r : Reader) : (s.withReader r).idx = s.idx := rfl
@[simp] theorem State.withReader_rep (s : State) (r : Reader) : (s.withReader r).rep = s.rep := rfl
@[simp] theorem State.withReader_sym (s : State) (r : Reader) : (s.withReader r).sym = s.sym := rfl
@[simp] theorem State.withReader_length (s : State) (r : Reader) : (s.withReader r).length = s.length := rfl
@[simp] theorem State.withReader_dsym (s : State) (r : Reader) : (s.withReader r).dsym = s.dsym := rfl
@[simp] theorem State.withReader_dist (s : State) (r : Reader) : (s.withReader r).dist = s.dist := rfl
@[simp] theorem State.withReader_copyRem (s : State) (r : Reader) : (s.withReader r).copyRem = s.copyRem := rfl
@[simp] theorem State.withReader_outLen (s : State) (r : Reader) : (s.withReader r).outLen = s.outLen := rfl
@[simp] theorem State.withReader_clt (s : State) (r : Reader) : (s.withReader r).clt = s.clt := rfl
@[simp] theorem State.withReader_llt (s : State) (r : Reader) : (s.withReader r).llt = s.llt := rfl
@[simp] theorem State.withReader_dt (s : State) (r : Reader) : (s.withReader r).dt = s.dt := rfl
@[simp] theorem State.withReader_count (s : State) (r : Reader) : (s.withReader r).count = s.count := rfl
@[simp] theorem State.withReader_nextCode (s : State) (r : Reader) : (s.withReader r).nextCode = s.nextCode := rfl
@[simp] theorem State.withReader_inMem (s : State) (r : Reader) : (s.withReader r).inMem = s.inMem := rfl
@[simp] theorem State.withReader_outMem (s : State) (r : Reader) : (s.withReader r).outMem = s.outMem := rfl
@[simp] theorem State.withReader_host (s : State) (r : Reader) : (s.withReader r).host = s.host := rfl
@[simp] theorem State.withReader_hostData (s : State) (r : Reader) : (s.withReader r).hostData = s.hostData := rfl
@[simp] theorem State.withReader_free (s : State) (r : Reader) : (s.withReader r).free = s.free := rfl

@[simp] theorem State.withScratch_par (s : State) (b : Build) : (s.withScratch b).par = s.par := rfl
@[simp] theorem State.withScratch_mode (s : State) (b : Build) : (s.withScratch b).mode = s.mode := rfl
@[simp] theorem State.withScratch_inLen (s : State) (b : Build) : (s.withScratch b).inLen = s.inLen := rfl
@[simp] theorem State.withScratch_err (s : State) (b : Build) : (s.withScratch b).err = s.err := rfl
@[simp] theorem State.withScratch_state (s : State) (b : Build) : (s.withScratch b).state = s.state := rfl
@[simp] theorem State.withScratch_part (s : State) (b : Build) : (s.withScratch b).part = s.part := rfl
@[simp] theorem State.withScratch_byteCursor (s : State) (b : Build) : (s.withScratch b).byteCursor = s.byteCursor := rfl
@[simp] theorem State.withScratch_bitCursor (s : State) (b : Build) : (s.withScratch b).bitCursor = s.bitCursor := rfl
@[simp] theorem State.withScratch_limit (s : State) (b : Build) : (s.withScratch b).limit = s.limit := rfl
@[simp] theorem State.withScratch_bfinal (s : State) (b : Build) : (s.withScratch b).bfinal = s.bfinal := rfl
@[simp] theorem State.withScratch_btype (s : State) (b : Build) : (s.withScratch b).btype = s.btype := rfl
@[simp] theorem State.withScratch_blocks (s : State) (b : Build) : (s.withScratch b).blocks = s.blocks := rfl
@[simp] theorem State.withScratch_stLen (s : State) (b : Build) : (s.withScratch b).stLen = s.stLen := rfl
@[simp] theorem State.withScratch_stNlen (s : State) (b : Build) : (s.withScratch b).stNlen = s.stNlen := rfl
@[simp] theorem State.withScratch_stRem (s : State) (b : Build) : (s.withScratch b).stRem = s.stRem := rfl
@[simp] theorem State.withScratch_hlit (s : State) (b : Build) : (s.withScratch b).hlit = s.hlit := rfl
@[simp] theorem State.withScratch_hdist (s : State) (b : Build) : (s.withScratch b).hdist = s.hdist := rfl
@[simp] theorem State.withScratch_hclen (s : State) (b : Build) : (s.withScratch b).hclen = s.hclen := rfl
@[simp] theorem State.withScratch_clLen (s : State) (b : Build) : (s.withScratch b).clLen = s.clLen := rfl
@[simp] theorem State.withScratch_lens (s : State) (b : Build) : (s.withScratch b).lens = s.lens := rfl
@[simp] theorem State.withScratch_total (s : State) (b : Build) : (s.withScratch b).total = s.total := rfl
@[simp] theorem State.withScratch_idx (s : State) (b : Build) : (s.withScratch b).idx = s.idx := rfl
@[simp] theorem State.withScratch_rep (s : State) (b : Build) : (s.withScratch b).rep = s.rep := rfl
@[simp] theorem State.withScratch_sym (s : State) (b : Build) : (s.withScratch b).sym = s.sym := rfl
@[simp] theorem State.withScratch_length (s : State) (b : Build) : (s.withScratch b).length = s.length := rfl
@[simp] theorem State.withScratch_dsym (s : State) (b : Build) : (s.withScratch b).dsym = s.dsym := rfl
@[simp] theorem State.withScratch_dist (s : State) (b : Build) : (s.withScratch b).dist = s.dist := rfl
@[simp] theorem State.withScratch_copyRem (s : State) (b : Build) : (s.withScratch b).copyRem = s.copyRem := rfl
@[simp] theorem State.withScratch_outLen (s : State) (b : Build) : (s.withScratch b).outLen = s.outLen := rfl
@[simp] theorem State.withScratch_clt (s : State) (b : Build) : (s.withScratch b).clt = s.clt := rfl
@[simp] theorem State.withScratch_llt (s : State) (b : Build) : (s.withScratch b).llt = s.llt := rfl
@[simp] theorem State.withScratch_dt (s : State) (b : Build) : (s.withScratch b).dt = s.dt := rfl
@[simp] theorem State.withScratch_count (s : State) (b : Build) : (s.withScratch b).count = b.count := rfl
@[simp] theorem State.withScratch_nextCode (s : State) (b : Build) : (s.withScratch b).nextCode = b.nextCode := rfl
@[simp] theorem State.withScratch_inMem (s : State) (b : Build) : (s.withScratch b).inMem = s.inMem := rfl
@[simp] theorem State.withScratch_outMem (s : State) (b : Build) : (s.withScratch b).outMem = s.outMem := rfl
@[simp] theorem State.withScratch_host (s : State) (b : Build) : (s.withScratch b).host = s.host := rfl
@[simp] theorem State.withScratch_hostData (s : State) (b : Build) : (s.withScratch b).hostData = s.hostData := rfl
@[simp] theorem State.withScratch_free (s : State) (b : Build) : (s.withScratch b).free = s.free := rfl

@[simp] theorem State.header_par (s : State) (f : Bool) (b : BitVec 2) (n : BlockState) : (s.header f b n).par = s.par := rfl
@[simp] theorem State.header_mode (s : State) (f : Bool) (b : BitVec 2) (n : BlockState) : (s.header f b n).mode = s.mode := rfl
@[simp] theorem State.header_inLen (s : State) (f : Bool) (b : BitVec 2) (n : BlockState) : (s.header f b n).inLen = s.inLen := rfl
@[simp] theorem State.header_err (s : State) (f : Bool) (b : BitVec 2) (n : BlockState) : (s.header f b n).err = s.err := rfl
@[simp] theorem State.header_state (s : State) (f : Bool) (b : BitVec 2) (n : BlockState) : (s.header f b n).state = n := rfl
@[simp] theorem State.header_part (s : State) (f : Bool) (b : BitVec 2) (n : BlockState) : (s.header f b n).part = .first := rfl
@[simp] theorem State.header_byteCursor (s : State) (f : Bool) (b : BitVec 2) (n : BlockState) : (s.header f b n).byteCursor = s.byteCursor := rfl
@[simp] theorem State.header_bitCursor (s : State) (f : Bool) (b : BitVec 2) (n : BlockState) : (s.header f b n).bitCursor = s.bitCursor := rfl
@[simp] theorem State.header_limit (s : State) (f : Bool) (b : BitVec 2) (n : BlockState) : (s.header f b n).limit = s.limit := rfl
@[simp] theorem State.header_bfinal (s : State) (f : Bool) (b : BitVec 2) (n : BlockState) : (s.header f b n).bfinal = f := rfl
@[simp] theorem State.header_btype (s : State) (f : Bool) (b : BitVec 2) (n : BlockState) : (s.header f b n).btype = b := rfl
@[simp] theorem State.header_blocks (s : State) (f : Bool) (b : BitVec 2) (n : BlockState) : (s.header f b n).blocks = s.blocks := rfl
@[simp] theorem State.header_stLen (s : State) (f : Bool) (b : BitVec 2) (n : BlockState) : (s.header f b n).stLen = s.stLen := rfl
@[simp] theorem State.header_stNlen (s : State) (f : Bool) (b : BitVec 2) (n : BlockState) : (s.header f b n).stNlen = s.stNlen := rfl
@[simp] theorem State.header_stRem (s : State) (f : Bool) (b : BitVec 2) (n : BlockState) : (s.header f b n).stRem = s.stRem := rfl
@[simp] theorem State.header_hlit (s : State) (f : Bool) (b : BitVec 2) (n : BlockState) : (s.header f b n).hlit = s.hlit := rfl
@[simp] theorem State.header_hdist (s : State) (f : Bool) (b : BitVec 2) (n : BlockState) : (s.header f b n).hdist = s.hdist := rfl
@[simp] theorem State.header_hclen (s : State) (f : Bool) (b : BitVec 2) (n : BlockState) : (s.header f b n).hclen = s.hclen := rfl
@[simp] theorem State.header_clLen (s : State) (f : Bool) (b : BitVec 2) (n : BlockState) : (s.header f b n).clLen = s.clLen := rfl
@[simp] theorem State.header_lens (s : State) (f : Bool) (b : BitVec 2) (n : BlockState) : (s.header f b n).lens = s.lens := rfl
@[simp] theorem State.header_total (s : State) (f : Bool) (b : BitVec 2) (n : BlockState) : (s.header f b n).total = s.total := rfl
@[simp] theorem State.header_idx (s : State) (f : Bool) (b : BitVec 2) (n : BlockState) : (s.header f b n).idx = s.idx := rfl
@[simp] theorem State.header_rep (s : State) (f : Bool) (b : BitVec 2) (n : BlockState) : (s.header f b n).rep = s.rep := rfl
@[simp] theorem State.header_sym (s : State) (f : Bool) (b : BitVec 2) (n : BlockState) : (s.header f b n).sym = s.sym := rfl
@[simp] theorem State.header_length (s : State) (f : Bool) (b : BitVec 2) (n : BlockState) : (s.header f b n).length = s.length := rfl
@[simp] theorem State.header_dsym (s : State) (f : Bool) (b : BitVec 2) (n : BlockState) : (s.header f b n).dsym = s.dsym := rfl
@[simp] theorem State.header_dist (s : State) (f : Bool) (b : BitVec 2) (n : BlockState) : (s.header f b n).dist = s.dist := rfl
@[simp] theorem State.header_copyRem (s : State) (f : Bool) (b : BitVec 2) (n : BlockState) : (s.header f b n).copyRem = s.copyRem := rfl
@[simp] theorem State.header_outLen (s : State) (f : Bool) (b : BitVec 2) (n : BlockState) : (s.header f b n).outLen = s.outLen := rfl
@[simp] theorem State.header_clt (s : State) (f : Bool) (b : BitVec 2) (n : BlockState) : (s.header f b n).clt = s.clt := rfl
@[simp] theorem State.header_llt (s : State) (f : Bool) (b : BitVec 2) (n : BlockState) : (s.header f b n).llt = s.llt := rfl
@[simp] theorem State.header_dt (s : State) (f : Bool) (b : BitVec 2) (n : BlockState) : (s.header f b n).dt = s.dt := rfl
@[simp] theorem State.header_count (s : State) (f : Bool) (b : BitVec 2) (n : BlockState) : (s.header f b n).count = s.count := rfl
@[simp] theorem State.header_nextCode (s : State) (f : Bool) (b : BitVec 2) (n : BlockState) : (s.header f b n).nextCode = s.nextCode := rfl
@[simp] theorem State.header_inMem (s : State) (f : Bool) (b : BitVec 2) (n : BlockState) : (s.header f b n).inMem = s.inMem := rfl
@[simp] theorem State.header_outMem (s : State) (f : Bool) (b : BitVec 2) (n : BlockState) : (s.header f b n).outMem = s.outMem := rfl
@[simp] theorem State.header_host (s : State) (f : Bool) (b : BitVec 2) (n : BlockState) : (s.header f b n).host = s.host := rfl
@[simp] theorem State.header_hostData (s : State) (f : Bool) (b : BitVec 2) (n : BlockState) : (s.header f b n).hostData = s.hostData := rfl
@[simp] theorem State.header_free (s : State) (f : Bool) (b : BitVec 2) (n : BlockState) : (s.header f b n).free = s.free := rfl

@[simp] theorem State.takeLength_par (s : State) (y x : Nat) : (s.takeLength y x).par = s.par := rfl
@[simp] theorem State.takeLength_mode (s : State) (y x : Nat) : (s.takeLength y x).mode = s.mode := rfl
@[simp] theorem State.takeLength_inLen (s : State) (y x : Nat) : (s.takeLength y x).inLen = s.inLen := rfl
@[simp] theorem State.takeLength_err (s : State) (y x : Nat) : (s.takeLength y x).err = s.err := rfl
@[simp] theorem State.takeLength_state (s : State) (y x : Nat) : (s.takeLength y x).state = .distSym := rfl
@[simp] theorem State.takeLength_part (s : State) (y x : Nat) : (s.takeLength y x).part = s.part := rfl
@[simp] theorem State.takeLength_byteCursor (s : State) (y x : Nat) : (s.takeLength y x).byteCursor = s.byteCursor := rfl
@[simp] theorem State.takeLength_bitCursor (s : State) (y x : Nat) : (s.takeLength y x).bitCursor = s.bitCursor := rfl
@[simp] theorem State.takeLength_limit (s : State) (y x : Nat) : (s.takeLength y x).limit = s.limit := rfl
@[simp] theorem State.takeLength_bfinal (s : State) (y x : Nat) : (s.takeLength y x).bfinal = s.bfinal := rfl
@[simp] theorem State.takeLength_btype (s : State) (y x : Nat) : (s.takeLength y x).btype = s.btype := rfl
@[simp] theorem State.takeLength_blocks (s : State) (y x : Nat) : (s.takeLength y x).blocks = s.blocks := rfl
@[simp] theorem State.takeLength_stLen (s : State) (y x : Nat) : (s.takeLength y x).stLen = s.stLen := rfl
@[simp] theorem State.takeLength_stNlen (s : State) (y x : Nat) : (s.takeLength y x).stNlen = s.stNlen := rfl
@[simp] theorem State.takeLength_stRem (s : State) (y x : Nat) : (s.takeLength y x).stRem = s.stRem := rfl
@[simp] theorem State.takeLength_hlit (s : State) (y x : Nat) : (s.takeLength y x).hlit = s.hlit := rfl
@[simp] theorem State.takeLength_hdist (s : State) (y x : Nat) : (s.takeLength y x).hdist = s.hdist := rfl
@[simp] theorem State.takeLength_hclen (s : State) (y x : Nat) : (s.takeLength y x).hclen = s.hclen := rfl
@[simp] theorem State.takeLength_clLen (s : State) (y x : Nat) : (s.takeLength y x).clLen = s.clLen := rfl
@[simp] theorem State.takeLength_lens (s : State) (y x : Nat) : (s.takeLength y x).lens = s.lens := rfl
@[simp] theorem State.takeLength_total (s : State) (y x : Nat) : (s.takeLength y x).total = s.total := rfl
@[simp] theorem State.takeLength_idx (s : State) (y x : Nat) : (s.takeLength y x).idx = s.idx := rfl
@[simp] theorem State.takeLength_rep (s : State) (y x : Nat) : (s.takeLength y x).rep = s.rep := rfl
@[simp] theorem State.takeLength_sym (s : State) (y x : Nat) : (s.takeLength y x).sym = BitVec.ofNat 9 y := rfl
@[simp] theorem State.takeLength_length (s : State) (y x : Nat) : (s.takeLength y x).length = lengthOf y x := rfl
@[simp] theorem State.takeLength_dsym (s : State) (y x : Nat) : (s.takeLength y x).dsym = s.dsym := rfl
@[simp] theorem State.takeLength_dist (s : State) (y x : Nat) : (s.takeLength y x).dist = s.dist := rfl
@[simp] theorem State.takeLength_copyRem (s : State) (y x : Nat) : (s.takeLength y x).copyRem = s.copyRem := rfl
@[simp] theorem State.takeLength_outLen (s : State) (y x : Nat) : (s.takeLength y x).outLen = s.outLen := rfl
@[simp] theorem State.takeLength_clt (s : State) (y x : Nat) : (s.takeLength y x).clt = s.clt := rfl
@[simp] theorem State.takeLength_llt (s : State) (y x : Nat) : (s.takeLength y x).llt = s.llt := rfl
@[simp] theorem State.takeLength_dt (s : State) (y x : Nat) : (s.takeLength y x).dt = s.dt := rfl
@[simp] theorem State.takeLength_count (s : State) (y x : Nat) : (s.takeLength y x).count = s.count := rfl
@[simp] theorem State.takeLength_nextCode (s : State) (y x : Nat) : (s.takeLength y x).nextCode = s.nextCode := rfl
@[simp] theorem State.takeLength_inMem (s : State) (y x : Nat) : (s.takeLength y x).inMem = s.inMem := rfl
@[simp] theorem State.takeLength_outMem (s : State) (y x : Nat) : (s.takeLength y x).outMem = s.outMem := rfl
@[simp] theorem State.takeLength_host (s : State) (y x : Nat) : (s.takeLength y x).host = s.host := rfl
@[simp] theorem State.takeLength_hostData (s : State) (y x : Nat) : (s.takeLength y x).hostData = s.hostData := rfl
@[simp] theorem State.takeLength_free (s : State) (y x : Nat) : (s.takeLength y x).free = s.free := rfl

@[simp] theorem State.answer_par (s : State) (v : Nat) : (s.answer v).par = s.par := rfl
@[simp] theorem State.answer_mode (s : State) (v : Nat) : (s.answer v).mode = s.mode := rfl
@[simp] theorem State.answer_inLen (s : State) (v : Nat) : (s.answer v).inLen = s.inLen := rfl
@[simp] theorem State.answer_err (s : State) (v : Nat) : (s.answer v).err = s.err := rfl
@[simp] theorem State.answer_state (s : State) (v : Nat) : (s.answer v).state = s.state := rfl
@[simp] theorem State.answer_part (s : State) (v : Nat) : (s.answer v).part = s.part := rfl
@[simp] theorem State.answer_byteCursor (s : State) (v : Nat) : (s.answer v).byteCursor = s.byteCursor := rfl
@[simp] theorem State.answer_bitCursor (s : State) (v : Nat) : (s.answer v).bitCursor = s.bitCursor := rfl
@[simp] theorem State.answer_limit (s : State) (v : Nat) : (s.answer v).limit = s.limit := rfl
@[simp] theorem State.answer_bfinal (s : State) (v : Nat) : (s.answer v).bfinal = s.bfinal := rfl
@[simp] theorem State.answer_btype (s : State) (v : Nat) : (s.answer v).btype = s.btype := rfl
@[simp] theorem State.answer_blocks (s : State) (v : Nat) : (s.answer v).blocks = s.blocks := rfl
@[simp] theorem State.answer_stLen (s : State) (v : Nat) : (s.answer v).stLen = s.stLen := rfl
@[simp] theorem State.answer_stNlen (s : State) (v : Nat) : (s.answer v).stNlen = s.stNlen := rfl
@[simp] theorem State.answer_stRem (s : State) (v : Nat) : (s.answer v).stRem = s.stRem := rfl
@[simp] theorem State.answer_hlit (s : State) (v : Nat) : (s.answer v).hlit = s.hlit := rfl
@[simp] theorem State.answer_hdist (s : State) (v : Nat) : (s.answer v).hdist = s.hdist := rfl
@[simp] theorem State.answer_hclen (s : State) (v : Nat) : (s.answer v).hclen = s.hclen := rfl
@[simp] theorem State.answer_clLen (s : State) (v : Nat) : (s.answer v).clLen = s.clLen := rfl
@[simp] theorem State.answer_lens (s : State) (v : Nat) : (s.answer v).lens = s.lens := rfl
@[simp] theorem State.answer_total (s : State) (v : Nat) : (s.answer v).total = s.total := rfl
@[simp] theorem State.answer_idx (s : State) (v : Nat) : (s.answer v).idx = s.idx := rfl
@[simp] theorem State.answer_rep (s : State) (v : Nat) : (s.answer v).rep = s.rep := rfl
@[simp] theorem State.answer_sym (s : State) (v : Nat) : (s.answer v).sym = s.sym := rfl
@[simp] theorem State.answer_length (s : State) (v : Nat) : (s.answer v).length = s.length := rfl
@[simp] theorem State.answer_dsym (s : State) (v : Nat) : (s.answer v).dsym = s.dsym := rfl
@[simp] theorem State.answer_dist (s : State) (v : Nat) : (s.answer v).dist = s.dist := rfl
@[simp] theorem State.answer_copyRem (s : State) (v : Nat) : (s.answer v).copyRem = s.copyRem := rfl
@[simp] theorem State.answer_outLen (s : State) (v : Nat) : (s.answer v).outLen = s.outLen := rfl
@[simp] theorem State.answer_clt (s : State) (v : Nat) : (s.answer v).clt = s.clt := rfl
@[simp] theorem State.answer_llt (s : State) (v : Nat) : (s.answer v).llt = s.llt := rfl
@[simp] theorem State.answer_dt (s : State) (v : Nat) : (s.answer v).dt = s.dt := rfl
@[simp] theorem State.answer_count (s : State) (v : Nat) : (s.answer v).count = s.count := rfl
@[simp] theorem State.answer_nextCode (s : State) (v : Nat) : (s.answer v).nextCode = s.nextCode := rfl
@[simp] theorem State.answer_inMem (s : State) (v : Nat) : (s.answer v).inMem = s.inMem := rfl
@[simp] theorem State.answer_outMem (s : State) (v : Nat) : (s.answer v).outMem = s.outMem := rfl
@[simp] theorem State.answer_host (s : State) (v : Nat) : (s.answer v).host = s.host := rfl
@[simp] theorem State.answer_hostData (s : State) (v : Nat) : (s.answer v).hostData = v := rfl
@[simp] theorem State.answer_free (s : State) (v : Nat) : (s.answer v).free = s.free := rfl

@[simp] theorem State.answerFree_par (s : State) (w : Nat) : (s.answerFree w).par = s.par := rfl
@[simp] theorem State.answerFree_mode (s : State) (w : Nat) : (s.answerFree w).mode = s.mode := rfl
@[simp] theorem State.answerFree_inLen (s : State) (w : Nat) : (s.answerFree w).inLen = s.inLen := rfl
@[simp] theorem State.answerFree_err (s : State) (w : Nat) : (s.answerFree w).err = s.err := rfl
@[simp] theorem State.answerFree_state (s : State) (w : Nat) : (s.answerFree w).state = s.state := rfl
@[simp] theorem State.answerFree_part (s : State) (w : Nat) : (s.answerFree w).part = s.part := rfl
@[simp] theorem State.answerFree_byteCursor (s : State) (w : Nat) : (s.answerFree w).byteCursor = s.byteCursor := rfl
@[simp] theorem State.answerFree_bitCursor (s : State) (w : Nat) : (s.answerFree w).bitCursor = s.bitCursor := rfl
@[simp] theorem State.answerFree_limit (s : State) (w : Nat) : (s.answerFree w).limit = s.limit := rfl
@[simp] theorem State.answerFree_bfinal (s : State) (w : Nat) : (s.answerFree w).bfinal = s.bfinal := rfl
@[simp] theorem State.answerFree_btype (s : State) (w : Nat) : (s.answerFree w).btype = s.btype := rfl
@[simp] theorem State.answerFree_blocks (s : State) (w : Nat) : (s.answerFree w).blocks = s.blocks := rfl
@[simp] theorem State.answerFree_stLen (s : State) (w : Nat) : (s.answerFree w).stLen = s.stLen := rfl
@[simp] theorem State.answerFree_stNlen (s : State) (w : Nat) : (s.answerFree w).stNlen = s.stNlen := rfl
@[simp] theorem State.answerFree_stRem (s : State) (w : Nat) : (s.answerFree w).stRem = s.stRem := rfl
@[simp] theorem State.answerFree_hlit (s : State) (w : Nat) : (s.answerFree w).hlit = s.hlit := rfl
@[simp] theorem State.answerFree_hdist (s : State) (w : Nat) : (s.answerFree w).hdist = s.hdist := rfl
@[simp] theorem State.answerFree_hclen (s : State) (w : Nat) : (s.answerFree w).hclen = s.hclen := rfl
@[simp] theorem State.answerFree_clLen (s : State) (w : Nat) : (s.answerFree w).clLen = s.clLen := rfl
@[simp] theorem State.answerFree_lens (s : State) (w : Nat) : (s.answerFree w).lens = s.lens := rfl
@[simp] theorem State.answerFree_total (s : State) (w : Nat) : (s.answerFree w).total = s.total := rfl
@[simp] theorem State.answerFree_idx (s : State) (w : Nat) : (s.answerFree w).idx = s.idx := rfl
@[simp] theorem State.answerFree_rep (s : State) (w : Nat) : (s.answerFree w).rep = s.rep := rfl
@[simp] theorem State.answerFree_sym (s : State) (w : Nat) : (s.answerFree w).sym = s.sym := rfl
@[simp] theorem State.answerFree_length (s : State) (w : Nat) : (s.answerFree w).length = s.length := rfl
@[simp] theorem State.answerFree_dsym (s : State) (w : Nat) : (s.answerFree w).dsym = s.dsym := rfl
@[simp] theorem State.answerFree_dist (s : State) (w : Nat) : (s.answerFree w).dist = s.dist := rfl
@[simp] theorem State.answerFree_copyRem (s : State) (w : Nat) : (s.answerFree w).copyRem = s.copyRem := rfl
@[simp] theorem State.answerFree_outLen (s : State) (w : Nat) : (s.answerFree w).outLen = s.outLen := rfl
@[simp] theorem State.answerFree_clt (s : State) (w : Nat) : (s.answerFree w).clt = s.clt := rfl
@[simp] theorem State.answerFree_llt (s : State) (w : Nat) : (s.answerFree w).llt = s.llt := rfl
@[simp] theorem State.answerFree_dt (s : State) (w : Nat) : (s.answerFree w).dt = s.dt := rfl
@[simp] theorem State.answerFree_count (s : State) (w : Nat) : (s.answerFree w).count = s.count := rfl
@[simp] theorem State.answerFree_nextCode (s : State) (w : Nat) : (s.answerFree w).nextCode = s.nextCode := rfl
@[simp] theorem State.answerFree_inMem (s : State) (w : Nat) : (s.answerFree w).inMem = s.inMem := rfl
@[simp] theorem State.answerFree_outMem (s : State) (w : Nat) : (s.answerFree w).outMem = s.outMem := rfl
@[simp] theorem State.answerFree_host (s : State) (w : Nat) : (s.answerFree w).host = s.host := rfl
@[simp] theorem State.answerFree_hostData (s : State) (w : Nat) : (s.answerFree w).hostData = Config.freeValue s.free % 2 ^ w := rfl
@[simp] theorem State.answerFree_free (s : State) (w : Nat) : (s.answerFree w).free = s.free + 1 := rfl

end Sys2Proof.Machine
end

