-- ==== Sys2Proof/Laws/Ops.lean ====
section
/-! SUPPORT. What each shared operation over the state can do. -/

namespace Sys2Proof.Machine

/-- `OutAppend` either finds the output full or writes one byte and goes on. -/
theorem State.outAppend_cases (s : State) (v : Byte) (next : State → State) :
    (s.outLen = s.par.outCap ∧ s.outAppend v next = s.raise .outputOverflow) ∨
      (s.outLen ≠ s.par.outCap ∧
        s.outAppend v next =
          next { s with outMem := s.outMem.write s.outLen v, outLen := s.outLen + 1 }) := by
  unfold State.outAppend
  split
  · exact .inl ⟨‹_›, rfl⟩
  · exact .inr ⟨‹_›, rfl⟩

/-- A repeat either passes `total`, and writes `rep` alone, or writes its run. -/
theorem State.repeatLen_cases (s : State) (v : BitVec 4) (rep : BitVec 8) :
    (s.total.toNat < s.idx.toNat + rep.toNat ∧
        s.repeatLen v rep = ({ s with rep := rep } : State).raise .codeLengthOverrun) ∨
      (s.idx.toNat + rep.toNat ≤ s.total.toNat ∧
        s.repeatLen v rep =
          { s with
            rep := rep, lens := fill v s.lens s.idx.toNat rep.toNat,
            idx := BitVec.ofNat 9 (s.idx.toNat + rep.toNat) }) := by
  by_cases h : s.total.toNat < s.idx.toNat + rep.toNat
  · exact .inl ⟨h, if_pos h⟩
  · exact .inr ⟨by omega, if_neg h⟩

theorem fill_length {α : Type} (v : α) :
    ∀ (xs : List α) (i n : Nat), (fill v xs i n).length = xs.length
  | [], _, _ => rfl
  | x :: xs, i + 1, n => by simp [fill, fill_length v xs i n]
  | x :: xs, 0, 0 => rfl
  | x :: xs, 0, n + 1 => by simp [fill, fill_length v xs 0 n]

/-- Entry `j` after `n` entries from `i` on were set to `v`. -/
theorem fill_getD {α : Type} (v d : α) :
    ∀ (xs : List α) (i n j : Nat),
      (fill v xs i n).getD j d = if i ≤ j ∧ j < i + n ∧ j < xs.length then v else xs.getD j d
  | [], _, _, _ => by simp [fill]
  | x :: xs, i + 1, n, 0 => by simp [fill]
  | x :: xs, i + 1, n, j + 1 => by
    simp only [fill, List.getD_cons_succ, fill_getD v d xs i n j, List.length_cons]
    congr 1
    simp only [eq_iff_iff]
    omega
  | x :: xs, 0, 0, j => by simp [fill]
  | x :: xs, 0, n + 1, 0 => by simp [fill]
  | x :: xs, 0, n + 1, j + 1 => by
    simp only [fill, List.getD_cons_succ, fill_getD v d xs 0 n j, List.length_cons]
    congr 1
    simp only [eq_iff_iff]
    omega

theorem permute_length :
    ∀ (ps : List Nat) (vs a : List (BitVec 3)), (permute ps vs a).length = a.length
  | [], _, _ => rfl
  | _ :: _, [], _ => rfl
  | p :: ps, v :: vs, a => by simp [permute, permute_length ps vs (a.set p v)]

theorem assignCodes_length :
    ∀ (i : Nat) (bl : List Nat) (nc : List (BitVec 16)) (t : Tree),
      (assignCodes i bl nc t).2.length = nc.length
  | _, [], _, _ => rfl
  | i, l :: bl, nc, t => by
    unfold assignCodes
    split
    · exact assignCodes_length (i + 1) bl nc t
    · rw [assignCodes_length]
      exact List.length_set

/-- A build leaves its scratch at 16 counters and 16 codes (10_state.md R25). -/
theorem buildTree_scratch (bl : List Nat) :
    (buildTree bl).count.length = 16 ∧ (buildTree bl).nextCode.length = 16 := by
  refine ⟨by simp [buildTree, countLens], ?_⟩
  have h := assignCodes_length 0 bl (initCodes (countLens bl)) Tree.root
  exact h.trans (by simp [initCodes, countLens, List.range', firstCodes])

/-- The codes of 60_exceptions.md R161. -/
theorem errCode_range (k : ErrKind) : 1 ≤ (errCode k).toNat ∧ (errCode k).toNat ≤ 10 := by
  cases k <;> decide

theorem errCode_inj {j k : ErrKind} (h : errCode j = errCode k) : j = k := by
  revert h
  cases j <;> cases k <;> decide

/-- Putting the cursor back where a read of this state has left it gives that reader. -/
theorem State.reader_withReader {s : State} {r : Reader} (hm : r.mem = s.inMem)
    (hl : r.limit = s.limit) : (s.withReader r).reader = r := by
  cases r
  cases hm
  cases hl
  rfl

end Sys2Proof.Machine
end

