-- ==== Sys2Proof/Laws/PerInstr.lean ====
section
/-! SUPPORT. Per instruction: the operand an element assembles lies in the range the spec gives the
register that takes it (10_state.md R22, R23; 43_lz77_symbols.md R141). -/

namespace Sys2Proof.Laws

/-- The base and the raw field of a repeat count (42_block_state_machine.md R120 to R122). -/
def repParts : Instr → Option (Nat × Nat)
  | .cl16 r => some (3, r.toNat)
  | .cl17 r => some (3, r.toNat)
  | .cl18 r => some (11, r.toNat)
  | _ => none

namespace OperandRange

/-- A length is 3 to 258, a distance 1 to 32768, a repeat count 3 to 138. -/
def Statement (i : Instr) : Prop :=
  (∀ p, i.lengthParts = some p →
    3 ≤ (Machine.lengthOf p.1 p.2).toNat ∧ (Machine.lengthOf p.1 p.2).toNat ≤ 258) ∧
  (∀ p, i.distParts = some p →
    1 ≤ (Machine.distOf p.1 p.2).toNat ∧ (Machine.distOf p.1 p.2).toNat ≤ 32768) ∧
  (∀ p, repParts i = some p →
    3 ≤ (Machine.repOf p.1 p.2).toNat ∧ (Machine.repOf p.1 p.2).toNat ≤ 138)

/-- An element with no such operand. -/
theorem of_none {i : Instr} (hl : i.lengthParts = none) (hd : i.distParts = none)
    (hr : repParts i = none) : Statement i :=
  ⟨fun _ h => (nomatch hl.symm.trans h), fun _ h => (nomatch hd.symm.trans h),
    fun _ h => (nomatch hr.symm.trans h)⟩

theorem of_length {i : Instr} {y x : Nat} (hl : i.lengthParts = some (y, x))
    (hd : i.distParts = none) (hr : repParts i = none)
    (lo : 3 ≤ entry lenBase (y - 257) + x) (hi : entry lenBase (y - 257) + x ≤ 258) :
    Statement i := by
  refine ⟨fun p h => ?_, fun _ h => (nomatch hd.symm.trans h), fun _ h => (nomatch hr.symm.trans h)⟩
  obtain rfl := Option.some.inj (hl.symm.trans h)
  dsimp only
  rw [Machine.lengthOf, BitVec.toNat_ofNat, Nat.mod_eq_of_lt (by omega)]
  exact ⟨lo, hi⟩

theorem of_dist {i : Instr} {d y : Nat} (hl : i.lengthParts = none)
    (hd : i.distParts = some (d, y)) (hr : repParts i = none)
    (lo : 1 ≤ entry distBase d + y) (hi : entry distBase d + y ≤ 32768) : Statement i := by
  refine ⟨fun _ h => (nomatch hl.symm.trans h), fun p h => ?_, fun _ h => (nomatch hr.symm.trans h)⟩
  obtain rfl := Option.some.inj (hd.symm.trans h)
  dsimp only
  rw [Machine.distOf, BitVec.toNat_ofNat, Nat.mod_eq_of_lt (by omega)]
  exact ⟨lo, hi⟩

theorem of_rep {i : Instr} {b x : Nat} (hl : i.lengthParts = none) (hd : i.distParts = none)
    (hr : repParts i = some (b, x)) (lo : 3 ≤ b + x) (hi : b + x ≤ 138) : Statement i := by
  refine ⟨fun _ h => (nomatch hl.symm.trans h), fun _ h => (nomatch hd.symm.trans h), fun p h => ?_⟩
  obtain rfl := Option.some.inj (hr.symm.trans h)
  dsimp only
  rw [Machine.repOf, BitVec.toNat_ofNat, Nat.mod_eq_of_lt (by omega)]
  exact ⟨lo, hi⟩

theorem blockStored (f : Bool) : Statement (.blockStored f) := of_none rfl rfl rfl
theorem blockFixed (f : Bool) : Statement (.blockFixed f) := of_none rfl rfl rfl
theorem blockDynamic (f : Bool) : Statement (.blockDynamic f) := of_none rfl rfl rfl
theorem blockReserved (f : Bool) : Statement (.blockReserved f) := of_none rfl rfl rfl
theorem pad : Statement (.pad) := of_none rfl rfl rfl
theorem len16 (n : BitVec 16) : Statement (.len16 n) := of_none rfl rfl rfl
theorem nlen16 (n : BitVec 16) : Statement (.nlen16 n) := of_none rfl rfl rfl
theorem byte (x : Byte) : Statement (.byte x) := of_none rfl rfl rfl
theorem hlit (v : BitVec 5) : Statement (.hlit v) := of_none rfl rfl rfl
theorem hdist (v : BitVec 5) : Statement (.hdist v) := of_none rfl rfl rfl
theorem hclen (v : BitVec 4) : Statement (.hclen v) := of_none rfl rfl rfl
theorem cllen (vs : List (BitVec 3)) : Statement (.cllen vs) := of_none rfl rfl rfl
theorem cl (n : BitVec 4) : Statement (.cl n) := of_none rfl rfl rfl
theorem cl16 (r : BitVec 2) : Statement (.cl16 r) :=
  of_rep rfl rfl rfl (by omega) (by have := r.isLt; omega)
theorem cl17 (r : BitVec 3) : Statement (.cl17 r) :=
  of_rep rfl rfl rfl (by omega) (by have := r.isLt; omega)
theorem cl18 (r : BitVec 7) : Statement (.cl18 r) :=
  of_rep rfl rfl rfl (by omega) (by have := r.isLt; omega)
theorem lit (x : Byte) : Statement (.lit x) := of_none rfl rfl rfl
theorem eob : Statement (.eob) := of_none rfl rfl rfl
theorem length257 : Statement .length257 := of_length rfl rfl rfl (by decide) (by decide)
theorem length258 : Statement .length258 := of_length rfl rfl rfl (by decide) (by decide)
theorem length259 : Statement .length259 := of_length rfl rfl rfl (by decide) (by decide)
theorem length260 : Statement .length260 := of_length rfl rfl rfl (by decide) (by decide)
theorem length261 : Statement .length261 := of_length rfl rfl rfl (by decide) (by decide)
theorem length262 : Statement .length262 := of_length rfl rfl rfl (by decide) (by decide)
theorem length263 : Statement .length263 := of_length rfl rfl rfl (by decide) (by decide)
theorem length264 : Statement .length264 := of_length rfl rfl rfl (by decide) (by decide)
theorem length265 (x : BitVec 1) : Statement (.length265 x) :=
  of_length rfl rfl rfl (Nat.le_trans (by decide : 3 ≤ 11) (Nat.le_add_right ..)) (by have := x.isLt; simp only [entry, lenBase]; simp; omega)
theorem length266 (x : BitVec 1) : Statement (.length266 x) :=
  of_length rfl rfl rfl (Nat.le_trans (by decide : 3 ≤ 13) (Nat.le_add_right ..)) (by have := x.isLt; simp only [entry, lenBase]; simp; omega)
theorem length267 (x : BitVec 1) : Statement (.length267 x) :=
  of_length rfl rfl rfl (Nat.le_trans (by decide : 3 ≤ 15) (Nat.le_add_right ..)) (by have := x.isLt; simp only [entry, lenBase]; simp; omega)
theorem length268 (x : BitVec 1) : Statement (.length268 x) :=
  of_length rfl rfl rfl (Nat.le_trans (by decide : 3 ≤ 17) (Nat.le_add_right ..)) (by have := x.isLt; simp only [entry, lenBase]; simp; omega)
theorem length269 (x : BitVec 2) : Statement (.length269 x) :=
  of_length rfl rfl rfl (Nat.le_trans (by decide : 3 ≤ 19) (Nat.le_add_right ..)) (by have := x.isLt; simp only [entry, lenBase]; simp; omega)
theorem length270 (x : BitVec 2) : Statement (.length270 x) :=
  of_length rfl rfl rfl (Nat.le_trans (by decide : 3 ≤ 23) (Nat.le_add_right ..)) (by have := x.isLt; simp only [entry, lenBase]; simp; omega)
theorem length271 (x : BitVec 2) : Statement (.length271 x) :=
  of_length rfl rfl rfl (Nat.le_trans (by decide : 3 ≤ 27) (Nat.le_add_right ..)) (by have := x.isLt; simp only [entry, lenBase]; simp; omega)
theorem length272 (x : BitVec 2) : Statement (.length272 x) :=
  of_length rfl rfl rfl (Nat.le_trans (by decide : 3 ≤ 31) (Nat.le_add_right ..)) (by have := x.isLt; simp only [entry, lenBase]; simp; omega)
theorem length273 (x : BitVec 3) : Statement (.length273 x) :=
  of_length rfl rfl rfl (Nat.le_trans (by decide : 3 ≤ 35) (Nat.le_add_right ..)) (by have := x.isLt; simp only [entry, lenBase]; simp; omega)
theorem length274 (x : BitVec 3) : Statement (.length274 x) :=
  of_length rfl rfl rfl (Nat.le_trans (by decide : 3 ≤ 43) (Nat.le_add_right ..)) (by have := x.isLt; simp only [entry, lenBase]; simp; omega)
theorem length275 (x : BitVec 3) : Statement (.length275 x) :=
  of_length rfl rfl rfl (Nat.le_trans (by decide : 3 ≤ 51) (Nat.le_add_right ..)) (by have := x.isLt; simp only [entry, lenBase]; simp; omega)
theorem length276 (x : BitVec 3) : Statement (.length276 x) :=
  of_length rfl rfl rfl (Nat.le_trans (by decide : 3 ≤ 59) (Nat.le_add_right ..)) (by have := x.isLt; simp only [entry, lenBase]; simp; omega)
theorem length277 (x : BitVec 4) : Statement (.length277 x) :=
  of_length rfl rfl rfl (Nat.le_trans (by decide : 3 ≤ 67) (Nat.le_add_right ..)) (by have := x.isLt; simp only [entry, lenBase]; simp; omega)
theorem length278 (x : BitVec 4) : Statement (.length278 x) :=
  of_length rfl rfl rfl (Nat.le_trans (by decide : 3 ≤ 83) (Nat.le_add_right ..)) (by have := x.isLt; simp only [entry, lenBase]; simp; omega)
theorem length279 (x : BitVec 4) : Statement (.length279 x) :=
  of_length rfl rfl rfl (Nat.le_trans (by decide : 3 ≤ 99) (Nat.le_add_right ..)) (by have := x.isLt; simp only [entry, lenBase]; simp; omega)
theorem length280 (x : BitVec 4) : Statement (.length280 x) :=
  of_length rfl rfl rfl (Nat.le_trans (by decide : 3 ≤ 115) (Nat.le_add_right ..)) (by have := x.isLt; simp only [entry, lenBase]; simp; omega)
theorem length281 (x : BitVec 5) : Statement (.length281 x) :=
  of_length rfl rfl rfl (Nat.le_trans (by decide : 3 ≤ 131) (Nat.le_add_right ..)) (by have := x.isLt; simp only [entry, lenBase]; simp; omega)
theorem length282 (x : BitVec 5) : Statement (.length282 x) :=
  of_length rfl rfl rfl (Nat.le_trans (by decide : 3 ≤ 163) (Nat.le_add_right ..)) (by have := x.isLt; simp only [entry, lenBase]; simp; omega)
theorem length283 (x : BitVec 5) : Statement (.length283 x) :=
  of_length rfl rfl rfl (Nat.le_trans (by decide : 3 ≤ 195) (Nat.le_add_right ..)) (by have := x.isLt; simp only [entry, lenBase]; simp; omega)
theorem length284 (x : BitVec 5) : Statement (.length284 x) :=
  of_length rfl rfl rfl (Nat.le_trans (by decide : 3 ≤ 227) (Nat.le_add_right ..)) (by have := x.isLt; simp only [entry, lenBase]; simp; omega)
theorem length285 : Statement .length285 := of_length rfl rfl rfl (by decide) (by decide)
theorem dist0 : Statement .dist0 := of_dist rfl rfl rfl (by decide) (by decide)
theorem dist1 : Statement .dist1 := of_dist rfl rfl rfl (by decide) (by decide)
theorem dist2 : Statement .dist2 := of_dist rfl rfl rfl (by decide) (by decide)
theorem dist3 : Statement .dist3 := of_dist rfl rfl rfl (by decide) (by decide)
theorem dist4 (y : BitVec 1) : Statement (.dist4 y) :=
  of_dist rfl rfl rfl (Nat.le_trans (by decide : 1 ≤ 5) (Nat.le_add_right ..)) (by have := y.isLt; simp only [entry, distBase]; simp; omega)
theorem dist5 (y : BitVec 1) : Statement (.dist5 y) :=
  of_dist rfl rfl rfl (Nat.le_trans (by decide : 1 ≤ 7) (Nat.le_add_right ..)) (by have := y.isLt; simp only [entry, distBase]; simp; omega)
theorem dist6 (y : BitVec 2) : Statement (.dist6 y) :=
  of_dist rfl rfl rfl (Nat.le_trans (by decide : 1 ≤ 9) (Nat.le_add_right ..)) (by have := y.isLt; simp only [entry, distBase]; simp; omega)
theorem dist7 (y : BitVec 2) : Statement (.dist7 y) :=
  of_dist rfl rfl rfl (Nat.le_trans (by decide : 1 ≤ 13) (Nat.le_add_right ..)) (by have := y.isLt; simp only [entry, distBase]; simp; omega)
theorem dist8 (y : BitVec 3) : Statement (.dist8 y) :=
  of_dist rfl rfl rfl (Nat.le_trans (by decide : 1 ≤ 17) (Nat.le_add_right ..)) (by have := y.isLt; simp only [entry, distBase]; simp; omega)
theorem dist9 (y : BitVec 3) : Statement (.dist9 y) :=
  of_dist rfl rfl rfl (Nat.le_trans (by decide : 1 ≤ 25) (Nat.le_add_right ..)) (by have := y.isLt; simp only [entry, distBase]; simp; omega)
theorem dist10 (y : BitVec 4) : Statement (.dist10 y) :=
  of_dist rfl rfl rfl (Nat.le_trans (by decide : 1 ≤ 33) (Nat.le_add_right ..)) (by have := y.isLt; simp only [entry, distBase]; simp; omega)
theorem dist11 (y : BitVec 4) : Statement (.dist11 y) :=
  of_dist rfl rfl rfl (Nat.le_trans (by decide : 1 ≤ 49) (Nat.le_add_right ..)) (by have := y.isLt; simp only [entry, distBase]; simp; omega)
theorem dist12 (y : BitVec 5) : Statement (.dist12 y) :=
  of_dist rfl rfl rfl (Nat.le_trans (by decide : 1 ≤ 65) (Nat.le_add_right ..)) (by have := y.isLt; simp only [entry, distBase]; simp; omega)
theorem dist13 (y : BitVec 5) : Statement (.dist13 y) :=
  of_dist rfl rfl rfl (Nat.le_trans (by decide : 1 ≤ 97) (Nat.le_add_right ..)) (by have := y.isLt; simp only [entry, distBase]; simp; omega)
theorem dist14 (y : BitVec 6) : Statement (.dist14 y) :=
  of_dist rfl rfl rfl (Nat.le_trans (by decide : 1 ≤ 129) (Nat.le_add_right ..)) (by have := y.isLt; simp only [entry, distBase]; simp; omega)
theorem dist15 (y : BitVec 6) : Statement (.dist15 y) :=
  of_dist rfl rfl rfl (Nat.le_trans (by decide : 1 ≤ 193) (Nat.le_add_right ..)) (by have := y.isLt; simp only [entry, distBase]; simp; omega)
theorem dist16 (y : BitVec 7) : Statement (.dist16 y) :=
  of_dist rfl rfl rfl (Nat.le_trans (by decide : 1 ≤ 257) (Nat.le_add_right ..)) (by have := y.isLt; simp only [entry, distBase]; simp; omega)
theorem dist17 (y : BitVec 7) : Statement (.dist17 y) :=
  of_dist rfl rfl rfl (Nat.le_trans (by decide : 1 ≤ 385) (Nat.le_add_right ..)) (by have := y.isLt; simp only [entry, distBase]; simp; omega)
theorem dist18 (y : BitVec 8) : Statement (.dist18 y) :=
  of_dist rfl rfl rfl (Nat.le_trans (by decide : 1 ≤ 513) (Nat.le_add_right ..)) (by have := y.isLt; simp only [entry, distBase]; simp; omega)
theorem dist19 (y : BitVec 8) : Statement (.dist19 y) :=
  of_dist rfl rfl rfl (Nat.le_trans (by decide : 1 ≤ 769) (Nat.le_add_right ..)) (by have := y.isLt; simp only [entry, distBase]; simp; omega)
theorem dist20 (y : BitVec 9) : Statement (.dist20 y) :=
  of_dist rfl rfl rfl (Nat.le_trans (by decide : 1 ≤ 1025) (Nat.le_add_right ..)) (by have := y.isLt; simp only [entry, distBase]; simp; omega)
theorem dist21 (y : BitVec 9) : Statement (.dist21 y) :=
  of_dist rfl rfl rfl (Nat.le_trans (by decide : 1 ≤ 1537) (Nat.le_add_right ..)) (by have := y.isLt; simp only [entry, distBase]; simp; omega)
theorem dist22 (y : BitVec 10) : Statement (.dist22 y) :=
  of_dist rfl rfl rfl (Nat.le_trans (by decide : 1 ≤ 2049) (Nat.le_add_right ..)) (by have := y.isLt; simp only [entry, distBase]; simp; omega)
theorem dist23 (y : BitVec 10) : Statement (.dist23 y) :=
  of_dist rfl rfl rfl (Nat.le_trans (by decide : 1 ≤ 3073) (Nat.le_add_right ..)) (by have := y.isLt; simp only [entry, distBase]; simp; omega)
theorem dist24 (y : BitVec 11) : Statement (.dist24 y) :=
  of_dist rfl rfl rfl (Nat.le_trans (by decide : 1 ≤ 4097) (Nat.le_add_right ..)) (by have := y.isLt; simp only [entry, distBase]; simp; omega)
theorem dist25 (y : BitVec 11) : Statement (.dist25 y) :=
  of_dist rfl rfl rfl (Nat.le_trans (by decide : 1 ≤ 6145) (Nat.le_add_right ..)) (by have := y.isLt; simp only [entry, distBase]; simp; omega)
theorem dist26 (y : BitVec 12) : Statement (.dist26 y) :=
  of_dist rfl rfl rfl (Nat.le_trans (by decide : 1 ≤ 8193) (Nat.le_add_right ..)) (by have := y.isLt; simp only [entry, distBase]; simp; omega)
theorem dist27 (y : BitVec 12) : Statement (.dist27 y) :=
  of_dist rfl rfl rfl (Nat.le_trans (by decide : 1 ≤ 12289) (Nat.le_add_right ..)) (by have := y.isLt; simp only [entry, distBase]; simp; omega)
theorem dist28 (y : BitVec 13) : Statement (.dist28 y) :=
  of_dist rfl rfl rfl (Nat.le_trans (by decide : 1 ≤ 16385) (Nat.le_add_right ..)) (by have := y.isLt; simp only [entry, distBase]; simp; omega)
theorem dist29 (y : BitVec 13) : Statement (.dist29 y) :=
  of_dist rfl rfl rfl (Nat.le_trans (by decide : 1 ≤ 24577) (Nat.le_add_right ..)) (by have := y.isLt; simp only [entry, distBase]; simp; omega)
theorem llsym286 : Statement (.llsym286) := of_none rfl rfl rfl
theorem llsym287 : Statement (.llsym287) := of_none rfl rfl rfl
theorem dsym30 : Statement (.dsym30) := of_none rfl rfl rfl
theorem dsym31 : Statement (.dsym31) := of_none rfl rfl rfl
theorem zhdr (b0 b1 : Byte) : Statement (.zhdr b0 b1) := of_none rfl rfl rfl
theorem dictid : Statement (.dictid) := of_none rfl rfl rfl
theorem adler : Statement (.adler) := of_none rfl rfl rfl
theorem start (m : Mode) : Statement (.start m) := of_none rfl rfl rfl
theorem reset : Statement (.reset) := of_none rfl rfl rfl

end OperandRange

end Sys2Proof.Laws
end

