-- ==== Sys2Proof/Laws/Step.lean ====
section
/-! SUPPORT. What a step can do, said once. -/

namespace Sys2Proof.Machine

/-- Every step is an instruction executed, a row or host access with its outcome, or a fault taken. -/
theorem step_cases {s t : State} (h : step s = .next t) :
    (∃ i s', fetch s = .elem i s' ∧ exec i s' = .next t) ∨ fetch s = .row (.next t) ∨
      (∃ k s', fetch s = .raised k s' ∧ t = s'.raise k) := by
  unfold step at h
  cases e : fetch s with
  | elem i s' => rw [e] at h; exact .inl ⟨i, s', rfl, h⟩
  | row o =>
    rw [e] at h
    cases h
    exact .inr (.inl rfl)
  | raised k s' =>
    rw [e] at h
    cases h
    exact .inr (.inr ⟨k, s', rfl, rfl⟩)

/-- A state that differs from `s` in the cursor alone, moved on within the window. -/
def State.Moved (s s' : State) : Prop := ∃ r, s.reader.Later r ∧ s' = s.withReader r

theorem State.Moved.refl (s : State) : s.Moved s := ⟨s.reader, Reader.Later.refl _, rfl⟩

theorem fetchElem_moved (e : Expect) (s : State) :
    (∀ i s', fetchElem e s = .elem i s' → s.Moved s') ∧
      (∀ k s', fetchElem e s = .raised k s' → s.Moved s') ∧
      (∀ o, fetchElem e s = .row o → o = .fault .inRead) := by
  have h := decode_later e s.reader
  unfold fetchElem guardIn
  split
  · cases d : decode e s.reader with
    | ok i r =>
      rw [d] at h
      refine ⟨fun _ _ k => ?_, fun _ _ k => ?_, fun _ k => ?_⟩ <;> cases k
      exact ⟨r, h, rfl⟩
    | raise k r =>
      rw [d] at h
      refine ⟨fun _ _ k => ?_, fun _ _ k => ?_, fun _ k => ?_⟩ <;> cases k
      exact ⟨r, h, rfl⟩
  · refine ⟨fun _ _ k => ?_, fun _ _ k => ?_, fun _ k => ?_⟩ <;> cases k
    rfl

/-- Fetching an element of the stream changes nothing but the cursor, which only moves on. -/
theorem fetchBlock_elem {s s' : State} {i : Instr} (h : fetchBlock s = .elem i s') :
    s.Moved s' := by
  unfold fetchBlock at h
  split at h
  case h_2 =>
    unfold fetchEnvelope at h
    split at h
    · split at h
      · cases h
      split at h
      · cases h
      · cases h
        exact .refl s
    · cases h
      exact .refl s
    · cases h
      exact .refl s
  case h_3 =>
    unfold fetchHeader at h
    split at h
    · cases h
    · exact (fetchElem_moved _ s).1 _ _ h
  case h_4 => unfold fetchStoredHeader at h; split at h <;> exact (fetchElem_moved _ s).1 _ _ h
  case h_5 =>
    split at h
    · cases h
    · exact (fetchElem_moved _ s).1 _ _ h
  case h_7 => unfold fetchCounts at h; split at h <;> exact (fetchElem_moved _ s).1 _ _ h
  case h_8 => exact (fetchElem_moved _ s).1 _ _ h
  case h_10 =>
    split at h
    · exact (fetchElem_moved _ s).1 _ _ h
    · cases h
  case h_12 =>
    have hl := Tree.decodeSymbol_later s.llt s.reader
    unfold fetchSymbol guardIn at h
    split at h
    · split at h
      · cases h
      · rename_i sym r e
        rw [e] at hl
        split at h
        · cases h
        · have hk := llElement_later sym.toNat r
          cases d : llElement sym.toNat r with
          | ok i' r' => rw [d] at h hk; cases h; exact ⟨r', hl.trans hk, rfl⟩
          | raise k r' => rw [d] at h; cases h
    · cases h
  case h_13 => exact (fetchElem_moved _ s).1 _ _ h
  case h_14 =>
    have hl := Tree.decodeSymbol_later s.dt s.reader
    unfold fetchDistSymbol guardIn at h
    split at h
    · split at h
      · cases h
      · rename_i sym r e
        rw [e] at hl
        split at h
        · cases h
        · have hk := dElement_later sym.toNat r
          cases d : dElement sym.toNat r with
          | ok i' r' => rw [d] at h hk; cases h; exact ⟨r', hl.trans hk, rfl⟩
          | raise k r' => rw [d] at h; cases h
    · cases h
  case h_15 => exact (fetchElem_moved _ s).1 _ _ h
  all_goals cases h

/-- A read that raises changes nothing but the cursor before the fault is taken. -/
theorem fetchBlock_raised {s s' : State} {k : ErrKind} (h : fetchBlock s = .raised k s') :
    s.Moved s' := by
  unfold fetchBlock at h
  split at h
  case h_2 =>
    unfold fetchEnvelope at h
    split at h
    · split at h
      · cases h
      split at h
      · cases h
        exact .refl s
      · cases h
    · cases h
    · cases h
  case h_3 =>
    unfold fetchHeader at h
    split at h
    · cases h
      exact .refl s
    · exact (fetchElem_moved _ s).2.1 _ _ h
  case h_4 => unfold fetchStoredHeader at h; split at h <;> exact (fetchElem_moved _ s).2.1 _ _ h
  case h_5 =>
    split at h
    · cases h
    · exact (fetchElem_moved _ s).2.1 _ _ h
  case h_7 => unfold fetchCounts at h; split at h <;> exact (fetchElem_moved _ s).2.1 _ _ h
  case h_8 => exact (fetchElem_moved _ s).2.1 _ _ h
  case h_10 =>
    split at h
    · exact (fetchElem_moved _ s).2.1 _ _ h
    · cases h
  case h_12 =>
    have hl := Tree.decodeSymbol_later s.llt s.reader
    unfold fetchSymbol guardIn at h
    split at h
    · split at h
      · rename_i k' r e
        rw [e] at hl
        cases h
        exact ⟨r, hl, rfl⟩
      · rename_i sym r e
        rw [e] at hl
        split at h
        · cases h
        · have hk := llElement_later sym.toNat r
          cases d : llElement sym.toNat r with
          | ok i' r' => rw [d] at h; cases h
          | raise k' r' => rw [d] at h hk; cases h; exact ⟨r', hl.trans hk, rfl⟩
    · cases h
  case h_13 => exact (fetchElem_moved _ s).2.1 _ _ h
  case h_14 =>
    have hl := Tree.decodeSymbol_later s.dt s.reader
    unfold fetchDistSymbol guardIn at h
    split at h
    · split at h
      · rename_i k' r e
        rw [e] at hl
        cases h
        exact ⟨r, hl, rfl⟩
      · rename_i sym r e
        rw [e] at hl
        split at h
        · cases h
        · have hk := dElement_later sym.toNat r
          cases d : dElement sym.toNat r with
          | ok i' r' => rw [d] at h; cases h
          | raise k' r' => rw [d] at h hk; cases h; exact ⟨r', hl.trans hk, rfl⟩
    · cases h
  case h_15 => exact (fetchElem_moved _ s).2.1 _ _ h
  all_goals cases h

end Sys2Proof.Machine
end

