-- ==== Sys2Proof/Tests/Slice0.lean ====
section
/-! SUPPORT. Tests of the model: the checks on an element, words of the spec decoded, single steps with
the results the spec gives, and for every statement with hypotheses a state that meets them. Expected
values come from the spec's examples and tables (the file and rule in each comment). -/

namespace Sys2Proof.Tests

open Sys2Proof.Machine

/-! Helpers. -/

/-- The reader over the bytes `bs` with the cursor at `(b, k)`. -/
def cursorAt (bs : List Byte) (b : Nat) (k : BitVec 3) : Reader :=
  { readerOf bs with byteCursor := b, bitCursor := k }

/-- What a read gives, without the reader after it but for its position. -/
def given {α : Type} : Read α → Option (α × Nat)
  | .ok a r => some (a, r.pos)
  | .raise _ _ => none

/-- The kind a read raises. -/
def raised {α : Type} : Read α → Option ErrKind
  | .ok _ _ => none
  | .raise k _ => some k

/-- A view of the next state. -/
def after {α : Type} (f : State → α) : Out → Option α
  | .next s => some (f s)
  | _ => none

/-- A running call over the bytes `bs`, 8 bytes of output, 2 blocks, in the state `st`. -/
def running (bs : List Byte) (st : BlockState) : State :=
  { State.reset with
    par := ⟨64, 8, 2⟩, inMem := Mem.load [] 0 bs, inLen := bs.length, limit := bs.length,
    state := st }

/-! Well-formedness. -/

theorem test_wellFormed_cllen : Instr.wellFormed (.cllen [7#3, 0#3, 7#3, 0#3]) = true := by decide

theorem test_illFormed_cllen_short : Instr.wellFormed (.cllen [7#3, 0#3, 7#3]) = false := by decide

theorem test_illFormed_cllen_long :
    Instr.wellFormed (.cllen (List.replicate 20 0#3)) = false := by decide

/-! Decoding, from words of the spec. -/

/-- 42_block_state_machine.md R111: `0x4B` is final, fixed. -/
theorem test_decode_blockFixed :
    given (decode .header (cursorAt [0x4B#8] 0 0#3)) = some (.blockFixed true, 3) := by decide

/-- 30_encoding.md R61: `f00`, `f01`, `f11`. -/
theorem test_decode_blockStored :
    given (decode .header (cursorAt [0x01#8] 0 0#3)) = some (.blockStored true, 3) := by decide

theorem test_decode_blockDynamic :
    given (decode .header (cursorAt [0x04#8] 0 0#3)) = some (.blockDynamic false, 3) := by decide

theorem test_decode_blockReserved :
    given (decode .header (cursorAt [0x06#8] 0 0#3)) = some (.blockReserved false, 3) := by decide

/-- 40_bit_reader.md R93: cursor (1,2) becomes (2,0). -/
theorem test_decode_pad :
    given (decode .pad (cursorAt [0xB5#8, 0x3C#8, 0x12#8] 1 2#3)) = some (.pad, 16) := by decide

/-- 40_bit_reader.md R95: from cursor (1,2) of `B5 3C 12 34 56`, 0x3412 and cursor (4,0). -/
theorem test_decode_len16 :
    given (decode .len16 (cursorAt [0xB5#8, 0x3C#8, 0x12#8, 0x34#8, 0x56#8] 1 2#3)) =
      some (.len16 0x3412#16, 32) := by decide

/-- 42_block_state_machine.md R113: `FC FF` is the complement of 3. -/
theorem test_decode_nlen16 :
    given (decode .nlen16 (cursorAt [0x01#8, 0x03#8, 0x00#8, 0xFC#8, 0xFF#8] 3 0#3)) =
      some (.nlen16 0xFFFC#16, 40) := by decide

/-- 40_bit_reader.md R94: `0x56` at cursor (4,0). -/
theorem test_decode_byte :
    given (decode .byte (cursorAt [0xB5#8, 0x3C#8, 0x12#8, 0x34#8, 0x56#8] 4 0#3)) =
      some (.byte 0x56#8, 40) := by decide

/-- 30_encoding.md R66: bits `10110` first bit low give HLIT 13 (0xED = 11101101). -/
theorem test_decode_hlit :
    given (decode .hlit (cursorAt [0xED#8] 0 0#3)) = some (.hlit 13#5, 5) := by decide

theorem test_decode_hdist :
    given (decode .hdist (cursorAt [0xED#8] 0 3#3)) = some (.hdist 29#5, 8) := by decide

theorem test_decode_hclen :
    given (decode .hclen (cursorAt [0xED#8] 0 4#3)) = some (.hclen 14#4, 8) := by decide

/-- 30_encoding.md R67: four fields of three bits, low bit first. -/
theorem test_decode_cllen :
    given (decode (.cllen 4) (cursorAt [0x88#8, 0xC6#8] 0 0#3)) =
      some (.cllen [0#3, 1#3, 2#3, 3#3], 12) := by decide

/-- A code-length tree of three symbols: 3 is `0`, 16 is `10`, 18 is `11`. -/
def smallClTree : Tree :=
  (buildTree [0, 0, 0, 1, 0, 0, 0, 0, 0, 0, 0, 0, 0, 0, 0, 0, 2, 0, 2]).tree

theorem test_decode_cl :
    given (decode (.clSym smallClTree false) (cursorAt [0x00#8] 0 0#3)) = some (.cl 3#4, 1) := by
  decide

/-- `10`, then raw2 `01` first bit low: 2. -/
theorem test_decode_cl16 :
    given (decode (.clSym smallClTree false) (cursorAt [0x09#8] 0 0#3)) =
      some (.cl16 2#2, 4) := by decide

/-- 42_block_state_machine.md R120: a 16 with no previous length, before its extra bits. -/
theorem test_decode_cl16_first :
    raised (decode (.clSym smallClTree true) (cursorAt [0x09#8] 0 0#3)) =
      some .repeatWithoutPrevious := by decide

/-- 42_block_state_machine.md R121: extra bits `000` write three zeros. -/
theorem test_decode_cl17 :
    given (decode (.clSym (Tree.node none (Tree.node (some 17#9) .nil .nil) .nil) true)
      (cursorAt [0x00#8] 0 0#3)) = some (.cl17 0#3, 4) := by decide

/-- 42_block_state_machine.md R122: extra bits `0010000` hold 4, 15 repeats. -/
theorem test_decode_cl18 :
    given (decode (.clSym smallClTree true) (cursorAt [0x13#8, 0x00#8] 0 0#3)) =
      some (.cl18 4#7, 9) := by decide

/-- 42_block_state_machine.md R114: `4B 04 00` holds literal 0x61 at (0,3), then symbol 256. -/
theorem test_decode_lit :
    given (decode (.llSym fixedLlRom) (cursorAt [0x4B#8, 0x04#8, 0x00#8] 0 3#3)) =
      some (.lit 0x61#8, 11) := by decide

theorem test_decode_eob :
    given (decode (.llSym fixedLlRom) (cursorAt [0x4B#8, 0x04#8, 0x00#8] 1 3#3)) =
      some (.eob, 18) := by decide

/-- 95_test_vectors.md X3: `4B 04 01 00` holds LENGTH 258 at (1,3). -/
theorem test_decode_length258 :
    given (decode (.llSym fixedLlRom) (cursorAt [0x4B#8, 0x04#8, 0x01#8, 0x00#8] 1 3#3)) =
      some (.length258, 18) := by decide

/-- 95_test_vectors.md X1c: LENGTH 283 with extra value 29 at (9,2). -/
theorem test_decode_length283 :
    given (decode (.llSym fixedLlRom)
      (cursorAt [0x4B#8, 0x4C#8, 0x1C#8, 0x05#8, 0xA3#8, 0x60#8, 0x14#8, 0x0C#8, 0x77#8, 0x00#8]
        7 2#3)) = some (.length283 29#5, 71) := by decide

/-- 95_test_vectors.md X3: DIST 0 at (2,2). -/
theorem test_decode_dist0 :
    given (decode (.dSym fixedDTree) (cursorAt [0x4B#8, 0x04#8, 0x01#8, 0x00#8] 2 2#3)) =
      some (.dist0, 23) := by decide

/-- 30_encoding.md R65, R71: code `11101`, then thirteen raw bits, all 1. -/
theorem test_decode_dist29 :
    given (decode (.dSym fixedDTree) (cursorAt [0xF7#8, 0xFF#8, 0x03#8] 0 0#3)) =
      some (.dist29 8191#13, 18) := by decide

/-- 30_encoding.md R65: `1111` meets a missing child. -/
theorem test_decode_dist_missing :
    raised (decode (.dSym fixedDTree) (cursorAt [0x0F#8] 0 0#3)) = some .treeError := by decide

/-- 43_lz77_symbols.md R136: `4B 1C 03` holds symbol 286 at (1,3). -/
theorem test_decode_llsym286 :
    given (decode (.llSym fixedLlRom) (cursorAt [0x4B#8, 0x1C#8, 0x03#8] 1 3#3)) =
      some (.llsym286, 19) := by decide

/-- 30_encoding.md R64: `11000111` is symbol 287. -/
theorem test_decode_llsym287 :
    given (decode (.llSym fixedLlRom) (cursorAt [0xE3#8] 0 0#3)) = some (.llsym287, 8) := by decide

/-- 43_lz77_symbols.md R137: in a tree of 32 positions of 5 bits, `11110` and `11111`. -/
theorem test_decode_dsym30 :
    given (decode (.dSym (buildTree (List.replicate 32 5)).tree) (cursorAt [0x0F#8] 0 0#3)) =
      some (.dsym30, 5) := by decide

theorem test_decode_dsym31 :
    given (decode (.dSym (buildTree (List.replicate 32 5)).tree) (cursorAt [0x1F#8] 0 0#3)) =
      some (.dsym31, 5) := by decide

/-- 40_bit_reader.md R97: a header cut after two bits; a code cut inside a walk. -/
theorem test_decode_header_cut :
    raised (decode .header (cursorAt [0x03#8] 0 6#3)) = some .inputUnderrun := by decide

theorem test_decode_code_cut :
    raised (decode (.llSym fixedLlRom) (cursorAt [0x4B#8, 0x04#8] 1 5#3)) = some .treeError := by
  decide

/-- 44_stream_and_wrapper.md R150: `78 BB` has the dictionary flag. -/
theorem test_decode_zhdr :
    decodeEnvelope (Mem.load [] 0 [0x78#8, 0xBB#8]) = .zhdr 0x78#8 0xBB#8 := by decide

/-- 10_state.md R16: bit 0 is START, bit 1 MODE. -/
theorem test_decode_start : decodeCtrl 3#32 = some (.start .zlib) := by decide

theorem test_decode_mode_only : decodeCtrl 2#32 = none := by decide

/-- 30_encoding.md R77: `BLOCK final=1 FIXED; LIT 0x61; EOB` packs into `4B 04 00`. -/
theorem test_encode_packs :
    packBytes 3 (encode fixedCodes 0 (.blockFixed true) ++ encode fixedCodes 3 (.lit 0x61#8) ++
      encode fixedCodes 11 .eob) = [0x4B#8, 0x04#8, 0x00#8] := by decide

/-- 20_memory.md R47: after three bits of `B5 3C`, a raw field of 7 bits is 22, cursor (1,2). -/
theorem test_nextBits :
    given ((cursorAt [0xB5#8, 0x3C#8] 0 3#3).nextBits 7) = some (22, 10) := by decide

/-! Single steps. -/

/-- 42_block_state_machine.md R126: `07` ends in IllegalBlockFormat. -/
theorem test_step_reserved :
    after (fun s => (s.state, s.err)) (step (running [0x07#8] .blkHdr)) =
      some (.error, 1#4) := by decide

/-- 10_state.md R31, 44_stream_and_wrapper.md R146: an empty input in mode RAW is InputUnderrun. -/
theorem test_step_empty :
    after (fun s => (s.state, s.err)) (step (running [] .blkHdr)) = some (.error, 5#4) := by decide

/-- 42_block_state_machine.md R113: `FC FE` does not match LEN 3. -/
theorem test_step_mismatch :
    after (fun s => (s.state, s.err))
      (step { running [0xFC#8, 0xFE#8] .stHdr with stLen := 3#16, part := .third }) =
      some (.error, 2#4) := by decide

/-- 43_lz77_symbols.md R131: literal 0x61 is appended at `out_len`. -/
theorem test_exec_lit :
    after (fun s => (s.outMem, s.outLen)) (exec (.lit 0x61#8) (running [] .sym)) =
      some ([(0, 0x61#8)], 1) := by decide

/-- 42_block_state_machine.md R120: `lens[97] = 3`, `idx = 98`, extra bits `00`: three more, `idx = 101`. -/
theorem test_exec_cl16 :
    after (fun s => (s.idx, s.lens.getD 98 0#4, s.lens.getD 100 0#4, s.lens.getD 101 0#4))
      (exec (.cl16 0#2)
        { running [] .dyLens with
          lens := State.reset.lens.set 97 3#4, idx := 98#9, total := 258#9 }) =
      some (101#9, 3#4, 3#4, 0#4) := by decide

/-- 42_block_state_machine.md R122: 15 zeros from the start. -/
theorem test_exec_cl18 :
    after (fun s => (s.idx, s.rep)) (exec (.cl18 4#7) { running [] .dyLens with total := 258#9 }) =
      some (15#9, 15#8) := by decide

/-- 43_lz77_symbols.md R133: symbol 265 with extra bit 1 is length 12. -/
theorem test_exec_length265 :
    after (fun s => s.length) (exec (.length265 1#1) (running [] .lenX)) = some 12#9 := by decide

/-- 30_encoding.md R70: symbol 284 with extra value 31 gives 258. -/
theorem test_exec_length284 :
    after (fun s => s.length) (exec (.length284 31#5) (running [] .lenX)) = some 258#9 := by decide

/-- 43_lz77_symbols.md R134: symbol 4 with extra bit 1 is distance 6. -/
theorem test_exec_dist4 :
    after (fun s => (s.dist, s.state, s.copyRem))
      (exec (.dist4 1#1) { running [] .distX with outLen := 6, length := 3#9 }) =
      some (6#16, .copy, 3#9) := by decide

/-- 43_lz77_symbols.md R139: with `out_len = 1`, `dist = 2` faults and `dist = 1` does not. -/
theorem test_exec_dist_too_far :
    after (fun s => (s.state, s.err)) (exec .dist1 { running [] .distX with outLen := 1 }) =
      some (.error, 6#4) := by decide

theorem test_exec_dist_in_reach :
    after (fun s => (s.state, s.err)) (exec .dist0 { running [] .distX with outLen := 1 }) =
      some (.copy, 0#4) := by decide

/-- 43_lz77_symbols.md R135: output `61`, `dist = 1`: the byte read is the last one appended. -/
theorem test_step_copy :
    after (fun s => (s.outMem, s.copyRem))
      (step
        { running [] .copy with
          outMem := [(0, 0x61#8)], outLen := 1, dist := 1#16, copyRem := 4#9 }) =
      some ([(0, 0x61#8), (1, 0x61#8)], 3#9) := by decide

/-- 44_stream_and_wrapper.md R150: `78 DA 4B 04 00 00 62 00 62`: no dictionary, window `IN[2..4]`. -/
theorem test_exec_adler :
    after (fun s => (s.byteCursor, s.limit, s.state))
      (exec .adler
        { running [0x78#8, 0xDA#8, 0x4B#8, 0x04#8, 0x00#8, 0x00#8, 0x62#8, 0x00#8, 0x62#8] .zhdr with
          byteCursor := 2, part := .third }) =
      some (2, 5, .blkHdr) := by decide

/-- 42_block_state_machine.md R116: `hclen = 0` sends lengths for 16, 17, 18 and 0 only. -/
theorem test_exec_cllen :
    after (fun s => s.clLen.map BitVec.toNat)
      (exec (.cllen [1#3, 2#3, 3#3, 4#3]) (running [] .dyClen)) =
      some [4, 0, 0, 0, 0, 0, 0, 0, 0, 0, 0, 0, 0, 0, 0, 0, 1, 2, 3] := by decide

/-- 42_block_state_machine.md R115: fields 2, 4, 14 give `total = 264`. -/
theorem test_exec_hclen :
    after (fun s => s.total)
      (exec (.hclen 14#4) { running [] .dyCounts with hlit := 2#5, hdist := 4#5 }) =
      some 264#9 := by decide

/-- 44_stream_and_wrapper.md R147: START while BUSY does not disturb the call. -/
theorem test_exec_start_busy :
    after (fun s => (s.state, s.outLen, s.mode))
      (exec (.start .zlib) { running [] .sym with outLen := 5 }) = some (.sym, 5, .zlib) := by decide

/-- 70_reset_and_hazards.md R185: a running call is abandoned. -/
theorem test_exec_reset :
    after (fun s => (s.state, s.outLen, s.inLen))
      (exec .reset { running [0x4B#8] .sym with outLen := 5 }) = some (.idle, 0, 0) := by decide

/-- A word of the table is what the first step after reset runs (notes/assumptions/16.md). -/
theorem test_fetch_word :
    after (fun s => (s.state, s.bfinal)) (step (State.reset.withFetchWord 8 2)) =
      some (.fxSetup, false) := by decide

/-! For every statement with hypotheses, states and operands that meet them. -/

theorem witness_RawElementsRoundTrip :
    (∃ (k : Codebook) (i : Instr) (e : Expect) (r : Reader) (rest : List Bool),
      i.rawExpect = some e ∧ (i.byteAligned = true → r.bitCursor = 0#3) ∧
        r.unread = encode k r.pos i ++ rest) ∧
    (∀ j < 16, ((Mem.load [] 0 [0x78#8, 0xBB#8]).read (j / 8)).getLsbD (j % 8) =
      (encode fixedCodes 0 (.zhdr 0x78#8 0xBB#8)).getD j false) ∧
    (∀ j < 32, (3#32).getLsbD j = (encode fixedCodes 0 (.start .zlib)).getD j false) :=
  ⟨⟨fixedCodes, .len16 0x3412#16, .len16, cursorAt [0x12#8, 0x34#8] 0 0#3, [], by decide⟩, by decide,
    by decide⟩

/-- An element across a byte boundary with bits after it, and a pad of six bits. -/
theorem witness_RawElementsRoundTrip_unaligned :
    (cursorAt [0xE0#8, 0x01#8] 0 5#3).unread =
        encode fixedCodes 5 (.hlit 15#5) ++ List.replicate 6 false ∧
      (cursorAt [0x03#8, 0xFF#8] 0 2#3).unread =
        encode fixedCodes 2 .pad ++ List.replicate 8 true := by decide

/-- A tree in which the one-bit code `0` is the symbol `n`. -/
def oneCode (n : Nat) : Tree := .node none (.node (some (BitVec.ofNat 9 n)) .nil .nil) .nil

/-- The codes that go with it. -/
def oneBook : Codebook := ⟨fun _ => [false], fun _ => [false], fun _ => [false]⟩

theorem witness_CodedElementsRoundTrip :
    ((cursorAt [0x06#8] 0 0#3).unread =
        encode oneBook 0 (.cl16 3#2) ++ [false, false, false, false, false] ∧
      (Instr.cl16 3#2).clSymbol = some 16 ∧
      (∀ w, (oneCode 16).walk (oneBook.cl 16 ++ w) = some (BitVec.ofNat 9 16, w)) ∧
      (false = true → 16 ≠ 16)) ∧
    ((cursorAt [0x3E#8] 0 0#3).unread =
        encode oneBook 0 (.length284 31#5) ++ [false, false] ∧
      (Instr.length284 31#5).llSymbol = some 284 ∧
      ∀ w, (oneCode 284).walk (oneBook.ll 284 ++ w) = some (BitVec.ofNat 9 284, w)) ∧
    ((cursorAt [0x02#8] 0 0#3).unread =
        encode oneBook 0 (.dist4 1#1) ++ List.replicate 6 false ∧
      (Instr.dist4 1#1).dSymbol = some 4 ∧
      ∀ w, (oneCode 4).walk (oneBook.d 4 ++ w) = some (BitVec.ofNat 9 4, w)) :=
  ⟨⟨by decide, rfl, fun _ => rfl, by decide⟩, ⟨by decide, rfl, fun _ => rfl⟩,
    by decide, rfl, fun _ => rfl⟩

/-- One state for each clause of the first part: the element decoded in it, with its expectation. -/
theorem witness_StepRunsDecodedInstruction :
    (running [0x4B#8] .blkHdr).inReadable = true ∧ (running [0x4B#8] .blkHdr).host = [] ∧
    (running [0x4B#8] .blkHdr).blocks ≠ (running [0x4B#8] .blkHdr).par.blockCap ∧
    given (decode .header (running [0x4B#8] .blkHdr).reader) = some (.blockFixed true, 3) ∧
    given (decode .pad (running [] .stHdr).reader) = some (.pad, 0) ∧
    given (decode .len16 (running [3#8, 0#8] .stHdr).reader) = some (.len16 3#16, 16) ∧
    given (decode .nlen16 (running [3#8, 0#8] .stHdr).reader) = some (.nlen16 3#16, 16) ∧
    given (decode .byte (running [3#8] .stCopy).reader) = some (.byte 3#8, 8) ∧
    given (decode .hlit (running [3#8] .dyCounts).reader) = some (.hlit 3#5, 5) ∧
    given (decode .hdist (running [3#8] .dyCounts).reader) = some (.hdist 3#5, 5) ∧
    given (decode .hclen (running [3#8] .dyCounts).reader) = some (.hclen 3#4, 4) ∧
    given (decode (.cllen (0 + 4)) (running [0#8, 0#8] .dyClen).reader) =
      some (.cllen [0#3, 0#3, 0#3, 0#3], 12) ∧
    given (decode (.clSym (oneCode 5) true) (running [0#8] .dyLens).reader) = some (.cl 5#4, 1) ∧
    given (decode (.llSym (oneCode 65)) (running [0#8] .sym).reader) = some (.lit 65#8, 1) ∧
    (Instr.lit 65#8).lengthParts = none ∧
    given (decode (.lenX 265) (running [1#8] .lenX).reader) = some (.length265 1#1, 1) ∧
    given (decode (.dSym (oneCode 31)) (running [0#8] .distSym).reader) = some (.dsym31, 1) ∧
    Instr.dsym31.distParts = none ∧
    given (decode (.distX 4) (running [1#8] .distX).reader) = some (.dist4 1#1, 1) := by decide

/-- The two-step elements, the envelope and the commands. -/
theorem witness_StepRunsDecodedInstruction_rest :
    given (decode (.llSym (oneCode 265)) (running [2#8] .sym).reader) =
      some (.length265 1#1, 2) ∧
    (Instr.length265 1#1).lengthParts = some (265, 1) ∧
    given (decode (.dSym (oneCode 4)) (running [2#8] .distSym).reader) = some (.dist4 1#1, 2) ∧
    (Instr.dist4 1#1).distParts = some (4, 1) ∧
    2 ≤ (running [0x78#8, 0xDA#8] .zhdr).inLen ∧
    (running [0x78#8, 0xDA#8] .zhdr).inLen ≤ (running [0x78#8, 0xDA#8] .zhdr).par.inCap ∧
    ({ running [] .zhdr with part := .second } : State).part = .second ∧
    ({ running [] .zhdr with part := .third } : State).part = .third ∧
    ({ running [] .idle with host := [.writeCtrl 1#32] } : State).host = [.writeCtrl 1#32] ∧
    decodeCtrl 1#32 = some (.start .raw) ∧
    ({ running [] .sym with host := [.assertReset] } : State).host = [.assertReset] ∧
    ({ running [] .sym with host := [.run, .readReg .status] } : State).host =
      .run :: [.readReg .status] := by decide

/-- Seven bits left: the clauses that succeed with exactly these, those that are one bit short, and
both clauses of the byte. -/
theorem witness_PositionArithmetic :
    (cursorAt [0xB5#8] 0 1#3).wf ∧ (cursorAt [0xB5#8] 0 1#3).pos + 7 =
      (cursorAt [0xB5#8] 0 1#3).endPos ∧
    (cursorAt [0xB5#8] 0 7#3).pos < (cursorAt [0xB5#8] 0 7#3).endPos ∧
    (cursorAt [0xB5#8] 1 0#3).wf ∧
    (cursorAt [0xB5#8] 1 0#3).endPos ≤ (cursorAt [0xB5#8] 1 0#3).pos ∧
    (cursorAt [0xB5#8] 0 1#3).endPos < (cursorAt [0xB5#8] 0 1#3).pos + 8 ∧
    8 * (((cursorAt [0xB5#8] 0 0#3).pos + 7) / 8) + 8 ≤ (cursorAt [0xB5#8] 0 0#3).endPos ∧
    (cursorAt [0xB5#8] 0 1#3).endPos < 8 * (((cursorAt [0xB5#8] 0 1#3).pos + 7) / 8) + 8 := by
  decide

theorem witness_AlignToByteBoundary :
    (cursorAt [0xB5#8] 1 0#3).bitCursor = 0#3 ∧ (cursorAt [0xB5#8] 0 7#3).bitCursor ≠ 0#3 ∧
    (cursorAt [0xB5#8] 0 7#3).wf := by decide

/-- Two whole bytes left after the boundary: two fit, three do not. -/
theorem witness_ByteAlignedReads :
    (cursorAt [0#8, 1#8, 2#8] 0 3#3).wf ∧
    ((cursorAt [0#8, 1#8, 2#8] 0 3#3).pos + 7) / 8 + 2 ≤ (cursorAt [0#8, 1#8, 2#8] 0 3#3).limit ∧
    (cursorAt [0#8, 1#8, 2#8] 0 3#3).limit <
      ((cursorAt [0#8, 1#8, 2#8] 0 3#3).pos + 7) / 8 + 3 := by decide

/-- In the tree of lengths (2, 0, 2): `1` has no node, `00` is a leaf after a node that is none; and a
window that ends after `0`. -/
theorem witness_DecodeSymbolStopsAtFirstLeaf :
    (cursorAt [0x01#8] 0 0#3).wf ∧
    (buildTree [2, 0, 2]).tree.hasNode ((cursorAt [0x01#8] 0 0#3).unread.take 1) = false ∧
    (∀ j, 1 ≤ j → j < 2 →
      (buildTree [2, 0, 2]).tree.hasNode ((cursorAt [0x00#8] 0 0#3).unread.take j) = true ∧
        (buildTree [2, 0, 2]).tree.leafSym ((cursorAt [0x00#8] 0 0#3).unread.take j) = none) ∧
    (buildTree [2, 0, 2]).tree.leafSym ((cursorAt [0x00#8] 0 0#3).unread.take 2) = some 0#9 ∧
    (∀ j, 1 ≤ j → j ≤ (cursorAt [0x00#8] 0 7#3).unread.length →
      (buildTree [2, 0, 2]).tree.hasNode ((cursorAt [0x00#8] 0 7#3).unread.take j) = true ∧
        (buildTree [2, 0, 2]).tree.leafSym ((cursorAt [0x00#8] 0 7#3).unread.take j) = none) := by
  refine ⟨by decide, by decide, fun j h k => ?_, by decide, fun j h k => ?_⟩
  · obtain rfl : j = 1 := by omega
    decide
  · obtain rfl : j = 1 := Nat.le_antisymm k h
    decide

theorem witness_ArenaNeverOverflows : ∀ l ∈ [2, 1, 3, 3], l ≤ 3 := by decide

theorem witness_BuiltSymbolsInAlphabet : [2, 1, 3, 3].length ≤ 512 := by decide

/-- 41_huffman_decoder.md R102 and R104: two complete sets, and an incomplete one. -/
theorem witness_ProperSetsDecodeCanonically :
    properLens [2, 1, 3, 3] = true ∧ properLens [3, 3, 3, 3, 3, 2, 4, 4] = true ∧
    properLens [2, 0, 2] = true ∧ [2, 1, 3, 3].length ≤ 288 ∧ 3 < [2, 1, 3, 3].length ∧
    [2, 1, 3, 3].getD 3 0 ≠ 0 := by decide

theorem witness_LengthMismatchFaults :
    0xFFFD#16 ≠ ({ running [] .stHdr with stLen := 3#16 } : State).stLen ^^^ 0xFFFF#16 := by decide

/-- The last free byte of the output. -/
theorem witness_LitAndByteAppend :
    ({ running [] .sym with outLen := 7 } : State).outMem.wf = true ∧
    ({ running [] .sym with outLen := 7 } : State).outLen ≠
      ({ running [] .sym with outLen := 7 } : State).par.outCap := by decide

theorem witness_AppendToFullOutputFaults :
    ({ running [] .sym with outLen := 8 } : State).outLen =
      ({ running [] .sym with outLen := 8 } : State).par.outCap := by decide

theorem witness_CodeLengthLengthsPlaced :
    Instr.wellFormed (.cllen (List.replicate 4 7#3)) = true ∧
    Instr.wellFormed (.cllen (List.replicate 19 7#3)) = true := by decide

/-- The last entry of the array. -/
theorem witness_CodeLengthStored :
    State.reset.lens.length = 320 ∧
    ({ running [] .dyLens with idx := 319#9 } : State).idx.toNat < 320 := by decide +kernel

/-- Runs that end exactly at `total`, of each of the three elements. -/
theorem witness_RepeatsWriteTheirRun :
    State.reset.lens.length = 320 ∧ (320#9).toNat ≤ 320 ∧
    (314#9).toNat + 3 + 3 ≤ (320#9).toNat ∧
    (∃ r : BitVec 2, Instr.cl16 3#2 = .cl16 r ∧ 3 = 3 ∧ 3 = r.toNat ∧ 314#9 ≠ 0#9 ∧
      0#4 = State.reset.lens.getD ((314#9).toNat - 1) 0#4) ∧
    (310#9).toNat + 3 + 7 ≤ (320#9).toNat ∧
    (∃ r : BitVec 3, Instr.cl17 7#3 = .cl17 r ∧ 3 = 3 ∧ 7 = r.toNat ∧ 0#4 = 0#4) ∧
    (182#9).toNat + 11 + 127 ≤ (320#9).toNat ∧
    (∃ r : BitVec 7, Instr.cl18 127#7 = .cl18 r ∧ 11 = 11 ∧ 127 = r.toNat ∧ 0#4 = 0#4) :=
  ⟨by decide +kernel, by decide, by decide, ⟨3#2, by decide +kernel⟩, by decide, ⟨7#3, by decide⟩, by decide,
    ⟨127#7, by decide⟩⟩

/-- No previous length, and runs that pass `total` by one. -/
theorem witness_RepeatFaults :
    (0#9 = 0#9) ∧ (318#9 ≠ 0#9 ∧ (320#9).toNat < (318#9).toNat + 3 + (0#2).toNat) ∧
    (320#9).toNat < (318#9).toNat + 3 + (0#3).toNat ∧
    (320#9).toNat < (310#9).toNat + 11 + (0#7).toNat := by decide

/-- A 16 as the first symbol, with extra bits after it and as the last bit of the window. -/
theorem witness_RepeatFaults_step :
    (running [0#8] .dyLens).host = [] ∧ (running [0#8] .dyLens).inReadable = true ∧
    (running [0#8] .dyLens).idx = 0#9 ∧
    0 < ({ running [0#8] .dyLens with total := 258#9 } : State).total.toNat ∧
    (running [0#8] .dyLens).reader.wf ∧
    (oneCode 16).walk (running [0#8] .dyLens).reader.unread =
      some (16#9, List.replicate 7 false) ∧
    ({ running [0#8] .dyLens with bitCursor := 7#3 } : State).reader.wf ∧
    (oneCode 16).walk
      ({ running [0#8] .dyLens with bitCursor := 7#3 } : State).reader.unread =
        some (16#9, []) := by decide

theorem witness_LengthElementsComplete :
    Instr.length257.lengthParts = some (257, 0) ∧
    (Instr.length284 31#5).lengthParts = some (284, 31) ∧
    Instr.length285.lengthParts = some (285, 0) := by decide

/-- The nearest and the farthest distance, each just within the output. -/
theorem witness_DistanceElementsComplete :
    Instr.dist0.distParts = some (0, 0) ∧
    entry distBase 0 + 0 ≤ ({ running [] .distX with outLen := 1 } : State).outLen ∧
    (Instr.dist29 8191#13).distParts = some (29, 8191) ∧
    entry distBase 29 + 8191 ≤ ({ running [] .distX with outLen := 32768 } : State).outLen := by
  decide

theorem witness_DistanceTooFarFaults :
    Instr.dist1.distParts = some (1, 0) ∧
    ({ running [] .distX with outLen := 1 } : State).outLen < entry distBase 1 + 0 := by decide

theorem witness_EnvelopeElements :
    2 ≤ (running [0x78#8, 0xDA#8] .zhdr).inLen ∧
    ({ running [0#8, 0#8, 0#8, 0#8, 0#8, 0#8] .zhdr with byteCursor := 2 } : State).byteCursor + 4 ≤
      ({ running [0#8, 0#8, 0#8, 0#8, 0#8, 0#8] .zhdr with byteCursor := 2 } : State).limit ∧
    ({ running [0#8, 0#8, 0#8, 0#8, 0#8, 0#8] .zhdr with byteCursor := 2 } : State).byteCursor + 4 ≤
      ({ running [0#8, 0#8, 0#8, 0#8, 0#8, 0#8] .zhdr with byteCursor := 2 } : State).inLen := by
  decide

/-- Each clause at its boundary: 1 byte; 5 and, with a dictionary, 9; 6 and, with a dictionary, 10. -/
theorem witness_ZlibWindow :
    (running [0x78#8] .zhdr).part = .first ∧ (running [0x78#8] .zhdr).host = [] ∧
    (running [0x78#8] .zhdr).inLen ≤ (running [0x78#8] .zhdr).par.inCap ∧
    (running [0x78#8] .zhdr).inLen < 2 ∧
    (running (0x78#8 :: 0xDA#8 :: List.replicate 3 0#8) .zhdr).inLen < 2 + 4 ∧
    ((running (0x78#8 :: 0xDA#8 :: List.replicate 3 0#8) .zhdr).inMem.read 1).getLsbD 5 = false ∧
    (running (0x78#8 :: 0xBB#8 :: List.replicate 7 0#8) .zhdr).inLen < 6 + 4 ∧
    ((running (0x78#8 :: 0xBB#8 :: List.replicate 7 0#8) .zhdr).inMem.read 1).getLsbD 5 = true ∧
    2 + 4 ≤ (running (0x78#8 :: 0xDA#8 :: List.replicate 4 0#8) .zhdr).inLen ∧
    6 + 4 ≤ (running (0x78#8 :: 0xBB#8 :: List.replicate 8 0#8) .zhdr).inLen := by decide

/-- Exactly three bits left, and two. -/
theorem witness_HeaderStep :
    (running [0x4B#8] .blkHdr).host = [] ∧
    (running [0x4B#8] .blkHdr).blocks ≠ (running [0x4B#8] .blkHdr).par.blockCap ∧
    (running [0x4B#8] .blkHdr).inReadable = true ∧
    ({ running [0x4B#8] .blkHdr with bitCursor := 5#3 } : State).pos + 3 ≤
      8 * (running [0x4B#8] .blkHdr).limit ∧
    8 * (running [0x4B#8] .blkHdr).limit <
      ({ running [0x4B#8] .blkHdr with bitCursor := 6#3 } : State).pos + 3 := by decide

theorem witness_BlockLoop :
    ({ running [] .blkHdr with blocks := 2 } : State).blocks =
      ({ running [] .blkHdr with blocks := 2 } : State).par.blockCap ∧
    ({ running [] .blkEnd with bfinal := true } : State).bfinal = true ∧
    (running [] .blkEnd).bfinal = false ∧ (running [] .blkEnd).host = [] := by decide

theorem witness_TreesBuilt :
    (running [] .fxSetup).host = [] ∧ (running [] .dyCltree).host = [] ∧
    (running [] .dyTrees).host = [] ∧ (running [] .dyLens).host = [] ∧
    ({ running [] .dyLens with total := 320#9, idx := 320#9 } : State).total.toNat ≤
      ({ running [] .dyLens with total := 320#9, idx := 320#9 } : State).idx.toNat := by decide

/-- The last byte of the output as source, with room and without. -/
theorem witness_CopyStep :
    (running [] .copy).copyRem = 0#9 ∧ (4#9 ≠ 0#9) ∧ 1 ≤ (1#16).toNat ∧ (1#16).toNat ≤ 1 ∧
    1 ≠ (running [] .copy).par.outCap ∧ (8#16).toNat ≤ 8 ∧ 8 = (running [] .copy).par.outCap ∧
    Mem.wf [(0, 0x61#8)] = true := by decide

/-- An overlapping copy that just fits. -/
theorem witness_CopyClosedForm :
    Mem.wf [(0, 0x61#8), (1, 0x62#8)] = true ∧ 1 ≤ (2#16).toNat ∧ (2#16).toNat ≤ 2 ∧
    2 + (6#9).toNat ≤ (running [] .copy).par.outCap := by decide

/-- A body that ends with the window and fills the output. -/
theorem witness_StoredBodyCopied :
    (running [1#8, 2#8, 3#8] .stCopy).inReadable = true ∧
    (running [1#8, 2#8, 3#8] .stCopy).bitCursor = 0#3 ∧
    0 + (3#16).toNat ≤ (running [1#8, 2#8, 3#8] .stCopy).limit ∧
    5 + (3#16).toNat ≤ (running [1#8, 2#8, 3#8] .stCopy).par.outCap ∧
    (running [1#8, 2#8, 3#8] .stCopy).outMem.wf = true ∧
    (running [] .stCopy).stRem = 0#16 ∧ (running [] .stCopy).host = [] := by decide

/-- For each tree a window that ends before a leaf; for each field one bit too few; for each whole byte
one byte too few. -/
theorem witness_TruncationFaults :
    (running [] .sym).inReadable = true ∧ (running [] .sym).reader.wf ∧
    (running [] .sym).llt.walk (running [] .sym).reader.unread = none ∧
    (oneCode 4).walk (running [] .distSym).reader.unread = none ∧
    (oneCode 4).walk (running [0xFF#8] .dyLens).reader.unread = none ∧
    8 * 1 < ({ running [0#8] .dyCounts with bitCursor := 4#3 } : State).pos + 5 ∧
    8 * 1 < ({ running [0#8] .dyCounts with bitCursor := 5#3 } : State).pos + 4 ∧
    8 * 1 < ({ running [0#8] .dyClen with bitCursor := 0#3 } : State).pos + 3 * (0 + 4) ∧
    8 * 1 < ({ running [0#8] .lenX with bitCursor := 4#3 } : State).pos + entry lenExtra (284 - 257) ∧
    8 * 1 < ({ running [0#8] .distX with bitCursor := 4#3 } : State).pos + entry distExtra 29 ∧
    1 < ((running [0#8] .stHdr).pos + 7) / 8 + 2 ∧
    0 < ((running [] .stCopy).pos + 7) / 8 + 1 ∧
    (oneCode 16).walk
      ({ running [0#8] .dyLens with bitCursor := 6#3 } : State).reader.unread =
        some (16#9, [false]) ∧ [false].length < 2 ∧
    (oneCode 17).walk
      ({ running [0#8] .dyLens with bitCursor := 5#3 } : State).reader.unread =
        some (17#9, [false, false]) ∧ [false, false].length < 3 ∧
    (oneCode 18).walk
      ({ running [0#8] .dyLens with bitCursor := 1#3 } : State).reader.unread =
        some (18#9, List.replicate 6 false) ∧ (List.replicate 6 false).length < 7 := by decide

theorem witness_StartBeginsCall :
    (running [0x4B#8] .idle).busy = false ∧
    (running [0x4B#8] .idle).inLen ≤ (running [0x4B#8] .idle).par.inCap ∧
    (running [0x4B#8] .done).busy = false ∧ (running [0x4B#8] .error).busy = false := by decide

/-- An input that fills IN, and an empty one. -/
theorem witness_LoadAndStart :
    (running [] .idle).busy = false ∧ (running [] .idle).inMem.wf = true ∧
    (List.replicate 64 0x61#8).length ≤ (running [] .idle).par.inCap ∧
    callOps .raw [] 0 = [.writeInLen 0, .writeCtrl 1#32] ∧
    callOps .zlib [0x78#8] 0 = [.writeIn 0 0x78#8, .writeInLen 1, .writeCtrl 3#32] := by decide

theorem witness_StartIgnoredOrRefused :
    (running [] .zhdr).busy = true ∧ (running [] .blkEnd).busy = true ∧
    ({ running [] .idle with inLen := 65 } : State).busy = false ∧
    ({ running [] .idle with inLen := 65 } : State).par.inCap <
      ({ running [] .idle with inLen := 65 } : State).inLen := by decide

theorem witness_HostReadsReturn :
    ({ running [] .done with host := [.readReg .err], outLen := 8 } : State).busy = false ∧
    ({ running [] .done with host := [.readOut 7], outLen := 8 } : State).host = [.readOut 7] ∧
    7 < 8 ∧ 7 < (running [] .done).par.outCap := by decide

theorem witness_UnspecifiedReadsReturnSome :
    ({ running [] .sym with host := [.readReg .err] } : State).busy = true ∧
    ({ running [] .error with host := [.readReg .outLen] } : State).state = .error ∧
    ({ running [] .done with host := [.readOut 7], outLen := 7 } : State).outLen ≤ 7 ∧
    7 < (running [] .done).par.outCap := by decide

/-- The whole capacity as `IN_LEN` and one more, and the last bytes of IN and of OUT. -/
theorem witness_HostWritesTaken :
    (2#32).getLsbD 0 = false ∧ (running [] .idle).busy = false ∧
    64 ≤ (running [] .idle).par.inCap ∧ (running [] .idle).par.inCap < 65 ∧
    63 < (running [] .idle).par.inCap ∧ (running [] .idle).inMem.wf = true ∧
    7 < (running [] .idle).par.outCap ∧ (running [] .idle).outMem.wf = true ∧
    ({ running [] .idle with host := [.writeInLen 65] } : State).host = [.writeInLen 65] ∧
    ({ running [] .idle with host := [.writeOut 7 1#8] } : State).host = [.writeOut 7 1#8] ∧
    ({ running [] .idle with host := [.writeIn 63 1#8] } : State).host = [.writeIn 63 1#8] := by
  decide

theorem witness_HostAccessesStopped :
    (running [] .sym).busy = true ∧
    ({ running [] .sym with host := [.writeInLen 3] } : State).host = [.writeInLen 3] ∧
    (running [] .done).busy = false ∧ (running [] .done).par.inCap ≤ 64 ∧
    (running [] .done).par.outCap ≤ 8 := by decide

theorem witness_RestStates :
    (running [] .idle).state = .idle ∧ (running [] .done).state = .done ∧
    (running [] .error).state = .error ∧ (running [] .error).host = [] := by decide

/-- ERROR entered by the cap test, and left by START and by reset. -/
theorem witness_FaultEntryAndExit :
    (∃ s t : State, step s = .next t ∧ t.state = .error ∧ s.state ≠ .error) ∧
    (∃ s t : State, step s = .next t ∧ s.state = .error ∧ t.state ≠ .error) :=
  ⟨⟨{ running [] .blkHdr with blocks := 2 }, _, rfl, by decide⟩,
    ⟨{ running [] .error with host := [.assertReset] }, _, rfl, by decide⟩⟩

theorem witness_DoneOnlyAfterFinalBlock :
    ∃ s t : State, step s = .next t ∧ t.state = .done ∧ s.state ≠ .done :=
  ⟨{ running [] .blkEnd with bfinal := true }, _, rfl, by decide⟩

theorem witness_InstructionFrame :
    ∃ (i : Instr) (s t : State), exec i s = .next t ∧ s.outMem.wf = true ∧ i ≠ .reset ∧
      (∀ m, i ≠ .start m) ∧ i.appends = false ∧ (∀ b0 b1, i ≠ .zhdr b0 b1) ∧ i ≠ .adler ∧
      i ≠ .dictid ∧ i ≠ .pad :=
  ⟨.eob, running [] .sym, _, rfl, by decide, nofun, nofun, rfl, nofun, nofun, nofun, nofun⟩

theorem witness_RunningCallWritesOnlyAtOutLen :
    ∃ s t : State, s.busy = true ∧ s.host = [] ∧ s.outMem.wf = true ∧ step s = .next t :=
  ⟨running [] .blkEnd, _, by decide, rfl, by decide, rfl⟩

theorem witness_PositionOnlyGrows :
    ∃ s t : State, s.busy = true ∧ s.state ≠ .zhdr ∧ s.host = [] ∧ s.reader.wf ∧
      step s = .next t :=
  ⟨running [] .blkEnd, _, by decide, by decide, rfl, by decide, rfl⟩

/-- A running call that meets the invariant. -/
theorem running_inv : (running [0x4B#8, 0x04#8, 0x00#8] .blkHdr).Inv where
  inWf := by decide
  outWf := by decide
  reader := by decide
  clLen := by decide
  lens := by decide +kernel
  count := by decide
  nextCode := by decide
  out := by decide
  blocks := by decide
  inBlock := by decide
  inLen := by decide
  window := by decide
  aligned := by decide
  errNone := by decide
  errKind := by decide
  total := by decide
  idx := by decide
  sym := by decide
  length := by decide
  dsym := by decide
  dist := by decide
  copyRem := by decide

theorem witness_InvKeptByStep : ∃ s t : State, s.Inv ∧ step s = .next t ∧ s.busy = true :=
  ⟨_, _, running_inv, rfl, by decide⟩

theorem witness_SmallTreeFaultCannotOccur :
    ∃ s t : State, s.Inv ∧ s.TreesSound ∧ step s = .next t ∧ s.err ≠ 4#4 :=
  ⟨_, _, running_inv, ⟨by decide, by decide, by decide, by decide, by decide, by decide⟩, rfl,
    by decide⟩

theorem witness_EveryCallEnds : ∃ s : State, s.Inv ∧ s.busy = true ∧ s.host = [] :=
  ⟨_, running_inv, by decide, rfl⟩

/-- An input loaded after reset. -/
theorem idle_inv : (running [0x4B#8, 0x04#8, 0x00#8] .idle).Inv where
  inWf := by decide
  outWf := by decide
  reader := by decide
  clLen := by decide
  lens := by decide +kernel
  count := by decide
  nextCode := by decide
  out := by decide
  blocks := by decide
  inBlock := by decide
  inLen := by decide
  window := by decide
  aligned := by decide
  errNone := by decide
  errKind := by decide
  total := by decide
  idx := by decide
  sym := by decide
  length := by decide
  dsym := by decide
  dist := by decide
  copyRem := by decide

/-- The same input after a call that filled the output and left a symbol. -/
def afterCall : State :=
  { running [0x4B#8, 0x04#8, 0x00#8] .done with outLen := 8, sym := 300#9, outMem := [(0, 1#8)] }

/-- It meets the invariant. -/
theorem afterCall_inv : afterCall.Inv where
  inWf := by decide
  outWf := by decide
  reader := by decide
  clLen := by decide
  lens := by decide +kernel
  count := by decide
  nextCode := by decide
  out := by decide
  blocks := by decide
  inBlock := by decide
  inLen := by decide
  window := by decide
  aligned := by decide
  errNone := by decide
  errKind := by decide
  total := by decide
  idx := by decide
  sym := by decide
  length := by decide
  dsym := by decide
  dist := by decide
  copyRem := by decide

/-- Two states before a call with the same input, that differ in what an earlier call left. -/
theorem witness_CallDependsOnInputOnly :
    ∃ s t : State, s.Inv ∧ t.Inv ∧ s.busy = false ∧ t.busy = false ∧ s.host = [] ∧ t.host = [] ∧
      s.par = t.par ∧ s.mode = t.mode ∧ s.inLen = t.inLen ∧ s.inLen ≤ s.par.inCap ∧
      (∀ a < s.inLen, s.inMem.read a = t.inMem.read a) ∧ s.outLen ≠ t.outLen :=
  ⟨_, _, idle_inv, afterCall_inv, by decide, by decide, rfl, rfl, rfl, rfl, rfl, by decide,
    fun _ _ => rfl, by decide⟩

end Sys2Proof.Tests
end

section
/-! SUPPORT. The elements of the stream by kind: what the decoder can give where the block reads, and
the one meaning the LENGTH elements share, and the DIST elements. -/

namespace Sys2Proof

/-- A raw field is always the element made of some value. -/
theorem rawField_ok {n : Nat} {f : Nat → Instr} {r r' : Reader} {i : Instr}
    (h : rawField n f r = .ok i r') : ∃ v, i = f v := by
  obtain ⟨v, _, -, hv⟩ := Read.bind_eq_ok h
  cases hv
  exact ⟨v, rfl⟩

theorem decodeHeader_ok {r r' : Reader} {i : Instr} (h : decodeHeader r = .ok i r') :
    ∃ f, i = .blockStored f ∨ i = .blockFixed f ∨ i = .blockDynamic f ∨ i = .blockReserved f := by
  obtain ⟨f, _, -, h⟩ := Read.bind_eq_ok h
  obtain ⟨t, _, -, h⟩ := Read.bind_eq_ok h
  refine ⟨f, ?_⟩
  split at h <;> cases h <;> simp

theorem clElement_ok {first : Bool} {y : BitVec 9} {r r' : Reader} {i : Instr}
    (h : clElement first y r = .ok i r') :
    (∃ n, i = .cl n) ∨ (∃ x, i = .cl16 x) ∨ (∃ x, i = .cl17 x) ∨ ∃ x, i = .cl18 x := by
  unfold clElement at h
  split at h
  · cases h; exact .inl ⟨_, rfl⟩
  split at h
  · split at h
    · cases h
    · obtain ⟨v, rfl⟩ := rawField_ok h; exact .inr (.inl ⟨_, rfl⟩)
  split at h
  · obtain ⟨v, rfl⟩ := rawField_ok h; exact .inr (.inr (.inl ⟨_, rfl⟩))
  split at h
  · obtain ⟨v, rfl⟩ := rawField_ok h; exact .inr (.inr (.inr ⟨_, rfl⟩))
  · cases h

theorem isLength_iff {y : Nat} : isLength y = true ↔ 257 ≤ y ∧ y ≤ 285 := by simp [isLength]

/-- A LENGTH element carries its symbol, and as much of the extra value as its field holds. -/
theorem lengthElement_parts {y : Nat} (x : Nat) (h : isLength y = true) :
    (lengthElement y x).lengthParts = some (y, x % 2 ^ entry lenExtra (y - 257)) := by
  obtain ⟨lo, hi⟩ := isLength_iff.1 h
  interval_cases y <;> simp [lengthElement, Instr.lengthParts, entry, lenExtra, Nat.mod_one]

/-- A DIST element carries its symbol, and as much of the extra value as its field holds. -/
theorem distElement_parts {d : Nat} (y : Nat) (h : d ≤ 29) :
    (distElement d y).distParts = some (d, y % 2 ^ entry distExtra d) := by
  interval_cases d <;> simp [distElement, Instr.distParts, entry, distExtra, Nat.mod_one]

/-- A literal/length symbol of 257 to 285 is a LENGTH element. -/
theorem llElement_length {y : Nat} {r r' : Reader} {i : Instr} (hy : isLength y = true)
    (h : llElement y r = .ok i r') : ∃ x, i.lengthParts = some (y, x) := by
  obtain ⟨lo, hi⟩ := isLength_iff.1 hy
  unfold llElement at h
  rw [if_neg (by omega), if_neg (by omega), if_pos hy] at h
  obtain ⟨v, rfl⟩ := rawField_ok h
  exact ⟨_, lengthElement_parts v hy⟩

/-- Any other literal/length symbol is a literal, the end of the block or one of the two without a
meaning. -/
theorem llElement_other {y : Nat} {r r' : Reader} {i : Instr} (hy : isLength y = false)
    (h : llElement y r = .ok i r') :
    (∃ x, i = .lit x) ∨ i = .eob ∨ i = .llsym286 ∨ i = .llsym287 := by
  unfold llElement at h
  split at h
  · cases h; exact .inl ⟨_, rfl⟩
  split at h
  · cases h; exact .inr (.inl rfl)
  rw [hy, if_neg Bool.false_ne_true] at h
  split at h
  · cases h; exact .inr (.inr (.inl rfl))
  split at h
  · cases h; exact .inr (.inr (.inr rfl))
  · cases h

/-- A distance symbol of 0 to 29 is a DIST element. -/
theorem dElement_dist {d : Nat} {r r' : Reader} {i : Instr} (hd : d ≤ 29)
    (h : dElement d r = .ok i r') : ∃ y, i.distParts = some (d, y) := by
  rw [dElement, if_pos hd] at h
  obtain ⟨v, rfl⟩ := rawField_ok h
  exact ⟨_, distElement_parts v hd⟩

/-- Any other distance symbol is one of the two without a meaning. -/
theorem dElement_other {d : Nat} {r r' : Reader} {i : Instr} (hd : ¬d ≤ 29)
    (h : dElement d r = .ok i r') : i = .dsym30 ∨ i = .dsym31 := by
  rw [dElement, if_neg hd] at h
  split at h
  · cases h; exact .inl rfl
  split at h
  · cases h; exact .inr rfl
  · cases h

/-- The operands of every instruction are in range, each instruction by its own law. -/
theorem Laws.operandRange (i : Instr) : OperandRange.Statement i := by
  open OperandRange in
  cases i
  exacts [blockStored _, blockFixed _, blockDynamic _, blockReserved _, pad, len16 _, nlen16 _,
    byte _, hlit _, hdist _, hclen _, cllen _, cl _, cl16 _, cl17 _, cl18 _, lit _, eob,
    length257, length258, length259, length260, length261, length262, length263, length264,
    length265 _, length266 _, length267 _, length268 _, length269 _, length270 _, length271 _,
    length272 _, length273 _, length274 _, length275 _, length276 _, length277 _, length278 _,
    length279 _, length280 _, length281 _, length282 _, length283 _, length284 _, length285,
    dist0, dist1, dist2, dist3, dist4 _, dist5 _, dist6 _, dist7 _, dist8 _, dist9 _, dist10 _,
    dist11 _, dist12 _, dist13 _, dist14 _, dist15 _, dist16 _, dist17 _, dist18 _, dist19 _,
    dist20 _, dist21 _, dist22 _, dist23 _, dist24 _, dist25 _, dist26 _, dist27 _, dist28 _,
    dist29 _, llsym286, llsym287, dsym30, dsym31, zhdr _ _, dictid, adler, start _, reset]

namespace Machine

/-- The LENGTH elements share one meaning (43_lz77_symbols.md R133). -/
theorem exec_of_lengthParts {i : Instr} {p : Nat × Nat} (h : i.lengthParts = some p) (s : State) :
    exec i s = .next (s.takeLength p.1 p.2) := by
  cases i <;> cases h <;> rfl

/-- The DIST elements share one meaning (43_lz77_symbols.md R134). -/
theorem exec_of_distParts {i : Instr} {p : Nat × Nat} (h : i.distParts = some p) (s : State) :
    exec i s = .next (s.takeDist p.1 p.2) := by
  cases i <;> cases h <;> rfl

/-- A distance either passes the start of the output or begins the copy. -/
theorem State.takeDist_cases (s : State) (d y : Nat) :
    (s.outLen < (distOf d y).toNat ∧
        s.takeDist d y =
          ({ s with dsym := BitVec.ofNat 5 d, dist := distOf d y } : State).raise .distanceTooFar) ∨
      ((distOf d y).toNat ≤ s.outLen ∧
        s.takeDist d y =
          { s with
            dsym := BitVec.ofNat 5 d, dist := distOf d y, copyRem := s.length, state := .copy }) := by
  by_cases h : s.outLen < (distOf d y).toNat
  · exact .inl ⟨h, if_pos h⟩
  · exact .inr ⟨by omega, if_neg h⟩

/-- Settles O52: only START looks at anything that could stop it. -/
theorem execAlwaysCompletes : Obligations.ExecAlwaysCompletes := by
  intro i s
  cases i with
  | start m =>
    by_cases hb : s.busy = true
    · exact .inl ⟨_, if_pos hb⟩
    by_cases hc : s.par.inCap < s.inLen
    · exact .inr ⟨⟨m, rfl⟩, by simpa using hb, hc, (if_neg hb).trans (if_pos hc)⟩
    · exact .inl ⟨_, (if_neg hb).trans (if_neg hc)⟩
  | _ => exact .inl ⟨_, rfl⟩

end Machine

end Sys2Proof
end

section
/-! SUPPORT. What one step of the block can do, said once: it reads on in the stream and then acts, by
an element that suits its state, by a row that reads nothing more, or by taking a fault. -/

namespace Sys2Proof.Machine

/-- The block decides a whole literal/length symbol here: in SYM, or in LEN_X with a symbol that is no
length, which no state with the invariant has. -/
def State.atSymbol (s : State) : Prop :=
  s.state = .sym ∨ s.state = .lenX ∧ isLength s.sym.toNat = false

/-- The block decides a whole distance symbol here: in DIST_SYM, or in DIST_X with a symbol above 29,
which no state with the invariant has. -/
def State.atDistSymbol (s : State) : Prop :=
  s.state = .distSym ∨ s.state = .distX ∧ ¬s.dsym.toNat ≤ 29

/-- The elements the block can meet in a state (42_block_state_machine.md R110). -/
inductive Reads (s : State) : Instr → Prop
  | zhdr {b0 b1 : Byte} (hst : s.state = .zhdr) (hp : s.part = .first) : Reads s (.zhdr b0 b1)
  | dictid (hst : s.state = .zhdr) (hp : s.part = .second) : Reads s .dictid
  | adler (hst : s.state = .zhdr) (hp : s.part = .third) : Reads s .adler
  | blockStored {f : Bool} (hst : s.state = .blkHdr) (hc : s.blocks ≠ s.par.blockCap) :
      Reads s (.blockStored f)
  | blockFixed {f : Bool} (hst : s.state = .blkHdr) (hc : s.blocks ≠ s.par.blockCap) :
      Reads s (.blockFixed f)
  | blockDynamic {f : Bool} (hst : s.state = .blkHdr) (hc : s.blocks ≠ s.par.blockCap) :
      Reads s (.blockDynamic f)
  | blockReserved {f : Bool} (hst : s.state = .blkHdr) (hc : s.blocks ≠ s.par.blockCap) :
      Reads s (.blockReserved f)
  | pad (hst : s.state = .stHdr) (hp : s.part = .first) : Reads s .pad
  | len16 {n : BitVec 16} (hst : s.state = .stHdr) (hp : s.part = .second) : Reads s (.len16 n)
  | nlen16 {n : BitVec 16} (hst : s.state = .stHdr) (hp : s.part = .third) : Reads s (.nlen16 n)
  | byte {x : Byte} (hst : s.state = .stCopy) (hr : s.stRem ≠ 0#16) : Reads s (.byte x)
  | hlit {v : BitVec 5} (hst : s.state = .dyCounts) (hp : s.part = .first) : Reads s (.hlit v)
  | hdist {v : BitVec 5} (hst : s.state = .dyCounts) (hp : s.part = .second) : Reads s (.hdist v)
  | hclen {v : BitVec 4} (hst : s.state = .dyCounts) (hp : s.part = .third) : Reads s (.hclen v)
  | cllen {vs : List (BitVec 3)} (hst : s.state = .dyClen) : Reads s (.cllen vs)
  | cl {n : BitVec 4} (hst : s.state = .dyLens) (hi : s.idx.toNat < s.total.toNat) :
      Reads s (.cl n)
  | cl16 {x : BitVec 2} (hst : s.state = .dyLens) (hi : s.idx.toNat < s.total.toNat) :
      Reads s (.cl16 x)
  | cl17 {x : BitVec 3} (hst : s.state = .dyLens) (hi : s.idx.toNat < s.total.toNat) :
      Reads s (.cl17 x)
  | cl18 {x : BitVec 7} (hst : s.state = .dyLens) (hi : s.idx.toNat < s.total.toNat) :
      Reads s (.cl18 x)
  | lit {x : Byte} (hst : s.atSymbol) : Reads s (.lit x)
  | eob (hst : s.atSymbol) : Reads s .eob
  | llsym286 (hst : s.atSymbol) : Reads s .llsym286
  | llsym287 (hst : s.atSymbol) : Reads s .llsym287
  | dsym30 (hst : s.atDistSymbol) : Reads s .dsym30
  | dsym31 (hst : s.atDistSymbol) : Reads s .dsym31
  | length {i : Instr} {x : Nat} (hst : s.state = .lenX)
      (hp : i.lengthParts = some (s.sym.toNat, x)) : Reads s i
  | dist {i : Instr} {y : Nat} (hst : s.state = .distX)
      (hp : i.distParts = some (s.dsym.toNat, y)) : Reads s i

/-- What fits a state depends on no cursor. -/
theorem Reads.withReader {s : State} {i : Instr} (h : Reads s i) (r : Reader) :
    Reads (s.withReader r) i := by
  cases h with
  | length hst hp => exact .length hst hp
  | dist hst hp => exact .dist hst hp
  | _ => constructor <;> assumption

/-- An element that is fetched was decoded at the cursor, inside the input. -/
theorem fetchElem_elem {e : Expect} {s s' : State} {i : Instr} (h : fetchElem e s = .elem i s') :
    ∃ r, decode e s.reader = .ok i r := by
  unfold fetchElem guardIn at h
  split at h
  · cases d : decode e s.reader with
    | ok i' r => rw [d] at h; cases h; exact ⟨r, rfl⟩
    | raise k r => rw [d] at h; cases h
  · cases h

/-- A fetch of an element at the cursor is never a row with a next state. -/
theorem fetchElem_not_row {e : Expect} {s t : State} : fetchElem e s ≠ .row (.next t) :=
  fun h => nomatch (fetchElem_moved e s).2.2 _ h

/-- The element of a literal/length symbol in SYM. -/
theorem fetchSymbol_reads {s s' : State} {i : Instr} (hst : s.state = .sym)
    (h : fetchSymbol s = .elem i s') : Reads s i := by
  unfold fetchSymbol guardIn at h
  split at h
  · split at h
    · cases h
    · rename_i y r _
      split at h
      · cases h
      · rename_i hy
        cases d : llElement y.toNat r with
        | raise k r' => rw [d] at h; cases h
        | ok i' r' =>
          rw [d] at h
          cases h
          obtain ⟨x, rfl⟩ | rfl | rfl | rfl := llElement_other (by simpa using hy) d
          · exact .lit (.inl hst)
          · exact .eob (.inl hst)
          · exact .llsym286 (.inl hst)
          · exact .llsym287 (.inl hst)
  · cases h

/-- The element of a distance symbol in DIST_SYM. -/
theorem fetchDistSymbol_reads {s s' : State} {i : Instr} (hst : s.state = .distSym)
    (h : fetchDistSymbol s = .elem i s') : Reads s i := by
  unfold fetchDistSymbol guardIn at h
  split at h
  · split at h
    · cases h
    · rename_i d r _
      split at h
      · cases h
      · rename_i hd
        cases e : dElement d.toNat r with
        | raise k r' => rw [e] at h; cases h
        | ok i' r' =>
          rw [e] at h
          cases h
          obtain rfl | rfl := dElement_other hd e
          · exact .dsym30 (.inl hst)
          · exact .dsym31 (.inl hst)
  · cases h

/-- An element the block fetches suits the state it is in. -/
theorem fetchBlock_reads {s s' : State} {i : Instr} (h : fetchBlock s = .elem i s') :
    Reads s i := by
  unfold fetchBlock at h
  split at h
  case h_2 hst =>
    unfold fetchEnvelope at h
    split at h
    next hp =>
      split at h
      · cases h
      split at h
      · cases h
      · cases h; exact .zhdr hst hp
    next hp => cases h; exact .dictid hst hp
    next hp => cases h; exact .adler hst hp
  case h_3 hst =>
    unfold fetchHeader at h
    split at h
    · cases h
    · rename_i hc
      obtain ⟨r, d⟩ := fetchElem_elem h
      obtain ⟨f, rfl | rfl | rfl | rfl⟩ := decodeHeader_ok d
      · exact .blockStored hst hc
      · exact .blockFixed hst hc
      · exact .blockDynamic hst hc
      · exact .blockReserved hst hc
  case h_4 hst =>
    unfold fetchStoredHeader at h
    split at h
    next hp => obtain ⟨r, d⟩ := fetchElem_elem h; cases d; exact .pad hst hp
    next hp =>
      obtain ⟨r, d⟩ := fetchElem_elem h
      obtain ⟨v, _, -, d⟩ := Read.bind_eq_ok d
      cases d
      exact .len16 hst hp
    next hp =>
      obtain ⟨r, d⟩ := fetchElem_elem h
      obtain ⟨v, _, -, d⟩ := Read.bind_eq_ok d
      cases d
      exact .nlen16 hst hp
  case h_5 hst =>
    split at h
    · cases h
    · rename_i hr
      obtain ⟨r, d⟩ := fetchElem_elem h
      obtain ⟨v, _, -, d⟩ := Read.bind_eq_ok d
      cases d
      exact .byte hst hr
  case h_7 hst =>
    unfold fetchCounts at h
    split at h <;> rename_i hp <;> obtain ⟨r, d⟩ := fetchElem_elem h <;>
      obtain ⟨v, rfl⟩ := rawField_ok d
    · exact .hlit hst hp
    · exact .hdist hst hp
    · exact .hclen hst hp
  case h_8 hst =>
    obtain ⟨r, d⟩ := fetchElem_elem h
    obtain ⟨vs, _, -, d⟩ := Read.bind_eq_ok d
    cases d
    exact .cllen hst
  case h_10 hst =>
    split at h
    · rename_i hi
      obtain ⟨r, d⟩ := fetchElem_elem h
      obtain ⟨y, _, -, d⟩ := Read.bind_eq_ok d
      obtain ⟨n, rfl⟩ | ⟨x, rfl⟩ | ⟨x, rfl⟩ | ⟨x, rfl⟩ := clElement_ok d
      · exact .cl hst hi
      · exact .cl16 hst hi
      · exact .cl17 hst hi
      · exact .cl18 hst hi
    · cases h
  case h_12 hst => exact fetchSymbol_reads hst h
  case h_13 hst =>
    obtain ⟨r, d⟩ := fetchElem_elem h
    cases hy : isLength s.sym.toNat with
    | true => obtain ⟨x, hp⟩ := llElement_length hy d; exact .length hst hp
    | false =>
      obtain ⟨x, rfl⟩ | rfl | rfl | rfl := llElement_other hy d
      · exact .lit (.inr ⟨hst, hy⟩)
      · exact .eob (.inr ⟨hst, hy⟩)
      · exact .llsym286 (.inr ⟨hst, hy⟩)
      · exact .llsym287 (.inr ⟨hst, hy⟩)
  case h_14 hst => exact fetchDistSymbol_reads hst h
  case h_15 hst =>
    obtain ⟨r, d⟩ := fetchElem_elem h
    by_cases hd : s.dsym.toNat ≤ 29
    · obtain ⟨y, hp⟩ := dElement_dist hd d
      exact .dist hst hp
    · obtain rfl | rfl := dElement_other hd d
      · exact .dsym30 (.inr ⟨hst, hd⟩)
      · exact .dsym31 (.inr ⟨hst, hd⟩)
  all_goals cases h

/-- `s'` is `s` with the cursor moved on by reading the stream; the envelope is not read through the
Bit Reader (44_stream_and_wrapper.md R150), so in ZHDR nothing has moved. -/
structure State.ReadOn (s s' : State) : Prop where
  moved : s.Moved s'
  envelope : s.state = .zhdr → s' = s

theorem State.ReadOn.refl (s : State) : s.ReadOn s := ⟨.refl s, fun _ => rfl⟩

/-- The envelope reads nothing through the Bit Reader and is never a row with a next state. -/
theorem fetchEnvelope_cases (s : State) :
    fetchEnvelope s = .row (.fault .inRead) ∨ fetchEnvelope s = .raised .inputUnderrun s ∨
      ∃ i, fetchEnvelope s = .elem i s := by
  unfold fetchEnvelope
  split
  · split
    · exact .inl rfl
    split
    · exact .inr (.inl rfl)
    · exact .inr (.inr ⟨_, rfl⟩)
  · exact .inr (.inr ⟨_, rfl⟩)
  · exact .inr (.inr ⟨_, rfl⟩)

theorem fetchBlock_elem_readOn {s s' : State} {i : Instr} (h : fetchBlock s = .elem i s') :
    s.ReadOn s' :=
  ⟨fetchBlock_elem h, fun hst => by
    rw [fetchBlock, hst] at h
    obtain e | e | ⟨_, e⟩ := fetchEnvelope_cases s <;> cases e.symm.trans h
    rfl⟩

theorem fetchBlock_raised_readOn {s s' : State} {k : ErrKind} (h : fetchBlock s = .raised k s') :
    s.ReadOn s' :=
  ⟨fetchBlock_raised h, fun hst => by
    rw [fetchBlock, hst] at h
    obtain e | e | ⟨_, e⟩ := fetchEnvelope_cases s <;> cases e.symm.trans h
    rfl⟩

/-- The states that rest fetch themselves. -/
theorem fetchBlock_of_not_busy {s : State} (h : s.busy = false) : fetchBlock s = .row (.next s) := by
  cases hst : s.state <;> simp [State.busy, State.run, hst] at h <;> rw [fetchBlock, hst]

/-- What the block does once it has read: R110's rows, the elements and the faults. -/
inductive Act (s : State) : State → Prop
  | elem {i : Instr} {t : State} (hr : Reads s i) (h : exec i s = .next t) : Act s t
  | raised {k : ErrKind} (hb : s.busy = true) : Act s (s.raise k)
  | rest (hb : s.busy = false) : Act s s
  | storedEnd (hst : s.state = .stCopy) (hr : s.stRem = 0#16) : Act s (rowStoredEnd s)
  | fixedSetup (hst : s.state = .fxSetup) : Act s (rowFixedSetup s)
  | clTree (hst : s.state = .dyCltree) : Act s (rowClTree s)
  | lensEnd (hst : s.state = .dyLens) (hi : ¬s.idx.toNat < s.total.toNat) : Act s (rowLensEnd s)
  | trees (hst : s.state = .dyTrees) : Act s (rowTrees s)
  | lengthSymbol {y : BitVec 9} (hst : s.state = .sym) (hy : isLength y.toNat = true) :
      Act s (rowLengthSymbol y s)
  | distSymbol {d : BitVec 9} (hst : s.state = .distSym) (hd : d.toNat ≤ 29) :
      Act s (rowDistSymbol d s)
  | copy {t : State} (hst : s.state = .copy) (h : rowCopy s = .next t) : Act s t
  | blockEnd (hst : s.state = .blkEnd) : Act s (rowBlockEnd s)

/-- A row with a next state, which may have read a symbol first. -/
theorem fetchBlock_row {s t : State} (h : fetchBlock s = .row (.next t)) :
    ∃ s', s.ReadOn s' ∧ Act s' t := by
  cases hb : s.busy with
  | false =>
    rw [fetchBlock_of_not_busy hb] at h
    cases h
    exact ⟨s, .refl s, .rest hb⟩
  | true =>
    have here : ∀ {u : State}, Act s u → ∃ s', s.ReadOn s' ∧ Act s' u := fun a => ⟨s, .refl s, a⟩
    unfold fetchBlock at h
    split at h
    case h_1 hst | h_18 hst | h_19 hst => simp [State.busy, State.run, hst] at hb
    case h_2 hst => obtain e | e | ⟨_, e⟩ := fetchEnvelope_cases s <;> cases e.symm.trans h
    case h_3 hst =>
      unfold fetchHeader at h
      split at h
      · cases h
      · exact absurd h fetchElem_not_row
    case h_4 hst => unfold fetchStoredHeader at h; split at h <;> exact absurd h fetchElem_not_row
    case h_5 hst =>
      split at h
      · rename_i hr; cases h; exact here (.storedEnd hst hr)
      · exact absurd h fetchElem_not_row
    case h_6 hst => cases h; exact here (.fixedSetup hst)
    case h_7 hst => unfold fetchCounts at h; split at h <;> exact absurd h fetchElem_not_row
    case h_8 hst => exact absurd h fetchElem_not_row
    case h_9 hst => cases h; exact here (.clTree hst)
    case h_10 hst =>
      split at h
      · exact absurd h fetchElem_not_row
      · rename_i hi; cases h; exact here (.lensEnd hst hi)
    case h_11 hst => cases h; exact here (.trees hst)
    case h_12 hst =>
      have hl := Tree.decodeSymbol_later s.llt s.reader
      unfold fetchSymbol guardIn at h
      split at h
      · split at h
        · cases h
        · rename_i y r e
          rw [e] at hl
          split at h
          · rename_i hy
            cases h
            exact ⟨s.withReader r, ⟨⟨r, hl, rfl⟩, by simp [hst]⟩, .lengthSymbol hst hy⟩
          · cases d : llElement y.toNat r <;> rw [d] at h <;> cases h
      · cases h
    case h_13 hst => exact absurd h fetchElem_not_row
    case h_14 hst =>
      have hl := Tree.decodeSymbol_later s.dt s.reader
      unfold fetchDistSymbol guardIn at h
      split at h
      · split at h
        · cases h
        · rename_i d r e
          rw [e] at hl
          split at h
          · rename_i hd
            cases h
            exact ⟨s.withReader r, ⟨⟨r, hl, rfl⟩, by simp [hst]⟩, .distSymbol hst hd⟩
          · cases c : dElement d.toNat r <;> rw [c] at h <;> cases h
      · cases h
    case h_15 hst => exact absurd h fetchElem_not_row
    case h_16 hst => injection h with h; exact here (.copy hst h)
    case h_17 hst => cases h; exact here (.blockEnd hst)

/-- The outcome a fetch comes to. -/
def Fetch.outcome : Fetch → Out
  | .elem i s => exec i s
  | .row o => o
  | .raised k s => .next (s.raise k)

theorem step_eq_outcome (s : State) : step s = (fetch s).outcome := by
  unfold step
  cases fetch s <;> rfl

/-- Without an access of the host the step is the block's own. -/
theorem step_of_host_nil {s : State} (h : s.host = []) : step s = (fetchBlock s).outcome := by
  rw [step_eq_outcome, fetch, h]

/-- With one it is that access, off the queue. -/
theorem step_of_host_cons {s : State} {op : HostOp} {ops : List HostOp} (h : s.host = op :: ops) :
    step s = (fetchHost op { s with host := ops }).outcome := by
  rw [step_eq_outcome, fetch, h]

/-- The block's own step: it reads on, then it acts. -/
theorem fetchBlock_next {s t : State} (h : (fetchBlock s).outcome = .next t) :
    ∃ s', s.ReadOn s' ∧ Act s' t := by
  cases e : fetchBlock s with
  | elem i s' =>
    rw [e] at h
    have hr := fetchBlock_elem_readOn e
    obtain ⟨r, -, rfl⟩ := hr.moved
    exact ⟨_, hr, .elem ((fetchBlock_reads e).withReader r) h⟩
  | row o =>
    rw [e] at h
    subst h
    exact fetchBlock_row e
  | raised k s' =>
    rw [e] at h
    cases h
    have hr := fetchBlock_raised_readOn e
    refine ⟨s', hr, .raised ?_⟩
    obtain ⟨r, -, rfl⟩ := hr.moved
    cases hb : s.busy with
    | true => exact hb
    | false => rw [fetchBlock_of_not_busy hb] at e; cases e

end Sys2Proof.Machine
end

section
/-! SUPPORT. What a step of the block leaves as it was: the input, the host's registers, the output but
for one byte at its end, and the stream behind the cursor. -/

namespace Sys2Proof

/-- The invariant of 10_state.md R11 keeps the position within the window. -/
theorem Reader.pos_le_of_wf {r : Reader} (h : r.wf) : r.pos ≤ 8 * r.limit := by
  obtain ⟨hle, hlt⟩ := h
  have h8 := r.bitCursor_lt
  unfold Reader.pos
  by_cases h0 : r.bitCursor = 0#3
  · rw [h0, BitVec.toNat_zero]; omega
  · have := hlt h0; omega

namespace Machine

/-- At most one byte appended, where there is room (43_lz77_symbols.md R138). -/
def State.Appended (s t : State) : Prop :=
  t.outLen = s.outLen ∧ t.outMem = s.outMem ∨
    s.outLen ≠ s.par.outCap ∧ t.outLen = s.outLen + 1 ∧
      ∃ v, t.outMem = s.outMem.write s.outLen v

/-- What every step of the block keeps; the envelope alone sets the window. -/
structure State.BlockFrame (s t : State) : Prop where
  par : t.par = s.par
  mode : t.mode = s.mode
  inLen : t.inLen = s.inLen
  inMem : t.inMem = s.inMem
  host : t.host = s.host
  hostData : t.hostData = s.hostData
  free : t.free = s.free
  err : t.state ≠ .error → t.err = s.err
  out : s.Appended t
  reader : s.state ≠ .zhdr → s.reader.Later t.reader

namespace State.BlockFrame

/-- A state that differs in the block's working registers alone. -/
theorem of_work {s t : State}
    (h : t =
      { t with
        par := s.par, mode := s.mode, inLen := s.inLen, err := s.err, byteCursor := s.byteCursor,
        bitCursor := s.bitCursor, limit := s.limit, outLen := s.outLen, inMem := s.inMem,
        outMem := s.outMem, host := s.host, hostData := s.hostData, free := s.free }) :
    s.BlockFrame t := by
  rw [h]
  exact ⟨rfl, rfl, rfl, rfl, rfl, rfl, rfl, fun _ => rfl, .inl ⟨rfl, rfl⟩, fun _ => .refl _⟩

theorem refl (s : State) : s.BlockFrame s := of_work rfl

theorem raise {s t : State} (h : s.BlockFrame t) (k : ErrKind) : s.BlockFrame (t.raise k) :=
  { h with err := fun hne => absurd rfl hne }

/-- What is kept after reading on is kept. -/
theorem of_readOn {s s' t : State} (hr : s.ReadOn s') (h : s'.BlockFrame t) : s.BlockFrame t := by
  obtain ⟨⟨r, hl, rfl⟩, -⟩ := hr
  have hr' : (s.withReader r).reader = r := State.reader_withReader hl.mem hl.limit
  exact { h with reader := fun hst => hl.trans (hr' ▸ h.reader hst) }

/-- OutAppend keeps the frame, whatever of the block's own it goes on to write. -/
theorem outAppend {s s' : State} {v : Byte} {next : State → State} (h : s.BlockFrame s')
    (hlen : s'.outLen = s.outLen)
    (hnext : s'.outLen ≠ s'.par.outCap →
      s.BlockFrame (next { s' with outMem := s'.outMem.write s.outLen v, outLen := s.outLen + 1 })) :
    s.BlockFrame (s'.outAppend v next) := by
  obtain ⟨-, e⟩ | ⟨hne, e⟩ := s'.outAppend_cases v next
  · rw [e]; exact h.raise _
  · rw [e, hlen]; exact hnext hne

end State.BlockFrame

open State.BlockFrame (of_work)

/-- Two trees built, and the scratch of the last build left. -/
theorem State.setTrees_frame (s : State) (b : Build) (l d : Tree) :
    s.BlockFrame { (s.withScratch b) with llt := l, dt := d, state := .sym } :=
  of_work rfl

/-- A repeat writes registers of the block alone. -/
theorem State.repeatLen_frame (s : State) (v : BitVec 4) (n : BitVec 8) :
    s.BlockFrame (s.repeatLen v n) := by
  obtain ⟨-, e⟩ | ⟨-, e⟩ := s.repeatLen_cases v n <;> rw [e]
  · exact (of_work rfl).raise _
  · exact of_work rfl

theorem exec_frame {s t : State} {i : Instr} (hr : Reads s i) (h : exec i s = .next t) :
    s.BlockFrame t := by
  cases hr with
  | zhdr hst hp =>
    cases h
    split
    · exact (of_work rfl).raise _
    · exact { State.BlockFrame.refl s with reader := fun hne => absurd hst hne }
  | dictid hst hp =>
    cases h
    split
    · exact (of_work rfl).raise _
    · exact { State.BlockFrame.refl s with reader := fun hne => absurd hst hne }
  | adler hst hp =>
    cases h
    split
    · exact (of_work rfl).raise _
    · exact { State.BlockFrame.refl s with
        err := fun _ => rfl
        reader := fun hne => absurd hst hne }
  | blockStored => cases h; exact of_work rfl
  | blockFixed => cases h; exact of_work rfl
  | blockDynamic => cases h; exact of_work rfl
  | blockReserved => cases h; exact (of_work rfl).raise _
  | pad =>
    cases h
    refine { State.BlockFrame.refl s with reader := fun _ => ?_ }
    have hl := s.reader.align_later
    exact (State.reader_withReader hl.mem hl.limit).symm ▸ hl
  | len16 => cases h; exact of_work rfl
  | nlen16 =>
    cases h
    dsimp only
    split
    · exact (of_work rfl).raise _
    · exact of_work rfl
  | byte =>
    cases h
    exact (State.BlockFrame.refl s).outAppend rfl fun hne =>
      { State.BlockFrame.refl s with out := .inr ⟨hne, rfl, _, rfl⟩ }
  | hlit => cases h; exact of_work rfl
  | hdist => cases h; exact of_work rfl
  | hclen => cases h; exact of_work rfl
  | cllen => cases h; exact of_work rfl
  | cl => cases h; exact of_work rfl
  | cl16 =>
    cases h
    split
    · exact (of_work rfl).raise _
    · exact s.repeatLen_frame _ _
  | cl17 => cases h; exact s.repeatLen_frame _ _
  | cl18 => cases h; exact s.repeatLen_frame _ _
  | lit =>
    cases h
    exact (of_work rfl).outAppend rfl fun hne =>
      { State.BlockFrame.refl s with out := .inr ⟨hne, rfl, _, rfl⟩ }
  | eob => cases h; exact of_work rfl
  | llsym286 => cases h; exact (of_work rfl).raise _
  | llsym287 => cases h; exact (of_work rfl).raise _
  | dsym30 => cases h; exact (of_work rfl).raise _
  | dsym31 => cases h; exact (of_work rfl).raise _
  | length hst hp => cases (exec_of_lengthParts hp s).symm.trans h; exact of_work rfl
  | @dist _ y hst hp =>
    cases (exec_of_distParts hp s).symm.trans h
    obtain ⟨-, e⟩ | ⟨-, e⟩ := s.takeDist_cases s.dsym.toNat y <;> rw [e]
    · exact (of_work rfl).raise _
    · exact of_work rfl

/-- COPY ends, or appends one byte read from the output (43_lz77_symbols.md R135). -/
theorem rowCopy_cases {s t : State} (h : rowCopy s = .next t) :
    (s.copyRem = 0#9 ∧ t = { s with state := .sym }) ∨
      (s.copyRem ≠ 0#9 ∧ 1 ≤ s.dist.toNat ∧ s.dist.toNat ≤ s.outLen ∧
        t = s.outAppend (s.outMem.read (s.outLen - s.dist.toNat)) fun s =>
          { s with copyRem := s.copyRem - 1#9 }) := by
  unfold rowCopy at h
  split at h
  · rename_i h0; cases h; exact .inl ⟨h0, rfl⟩
  split at h
  · cases h
  · rename_i h0 hd; cases h; exact .inr ⟨h0, by omega, by omega, rfl⟩

theorem Act.frame {s t : State} (h : Act s t) : s.BlockFrame t := by
  cases h with
  | elem hr h => exact exec_frame hr h
  | raised => exact (of_work rfl).raise _
  | rest => exact .refl s
  | copy hst h =>
    obtain ⟨-, rfl⟩ | ⟨-, -, -, rfl⟩ := rowCopy_cases h
    · exact of_work rfl
    · exact (State.BlockFrame.refl s).outAppend rfl fun hne =>
        { State.BlockFrame.refl s with out := .inr ⟨hne, rfl, _, rfl⟩ }
  | storedEnd => exact of_work rfl
  | fixedSetup => exact s.setTrees_frame _ _ _
  | clTree => exact of_work rfl
  | lensEnd => exact of_work rfl
  | trees => exact s.setTrees_frame _ _ _
  | lengthSymbol => exact of_work rfl
  | distSymbol => exact of_work rfl
  | blockEnd => exact of_work rfl

theorem fetchBlock_frame {s t : State} (h : (fetchBlock s).outcome = .next t) : s.BlockFrame t := by
  obtain ⟨s', hr, a⟩ := fetchBlock_next h
  exact .of_readOn hr a.frame

/-- Settles O54: the frame of the block's step, the byte appended being the one at `out_len`. -/
theorem runningCallWritesOnlyAtOutLen : Obligations.RunningCallWritesOnlyAtOutLen := by
  intro s t _ hh hwf h
  have f := fetchBlock_frame ((step_of_host_nil hh).symm.trans h)
  refine ⟨f.inMem, f.inLen, f.mode, f.par, f.host.trans hh, f.hostData, f.err, ?_⟩
  obtain ⟨hl, hm⟩ | ⟨-, hl, v, hm⟩ := f.out
  · exact .inl ⟨hl, fun a => by rw [hm]⟩
  · exact .inr ⟨hl, fun a ha => by rw [hm, Mem.read_write_other v hwf ha]⟩

/-- Settles O55: after the envelope every step reads on in the same window. -/
theorem positionOnlyGrows : Obligations.PositionOnlyGrows := by
  intro s t _ hst hh hwf h
  have hl := (fetchBlock_frame ((step_of_host_nil hh).symm.trans h)).reader hst
  have hp := Reader.pos_le_of_wf (hl.wf hwf)
  rw [hl.limit] at hp
  exact ⟨hl.pos, hl.limit, hp⟩

end Machine

end Sys2Proof
end

section
/-! SUPPORT. The invariant of the machine as what holds in every state and what the state of the block
adds to it, and that every step keeps it. -/

namespace Sys2Proof.Machine

/-- A running call (10_state.md R17, R19). -/
abbrev State.InCall (s : State) : Prop := s.err = 0#4 ∧ s.inLen ≤ s.par.inCap

/-- Its window is set (20_memory.md R45). -/
abbrev State.InWindow (s : State) : Prop := s.InCall ∧ s.limit ≤ s.inLen

/-- It is inside a block (44_stream_and_wrapper.md R149). -/
abbrev State.InBlock (s : State) : Prop := s.InWindow ∧ s.blocks < s.par.blockCap

/-- It is inside a dynamic header with its counts (42_block_state_machine.md R115). -/
abbrev State.InCounts (s : State) : Prop :=
  s.InBlock ∧ s.total.toNat = s.hlit.toNat + s.hdist.toNat + 258

/-- It is inside a pair with its length (43_lz77_symbols.md R133). -/
abbrev State.InPair (s : State) : Prop :=
  s.InBlock ∧ 3 ≤ s.length.toNat ∧ s.length.toNat ≤ 258

/-- What the invariant says of a block in the state `st`. -/
def State.StageAt (s : State) : BlockState → Prop
  | .idle | .done => s.err = 0#4
  | .error => 1 ≤ s.err.toNat ∧ s.err.toNat ≤ 10
  | .zhdr => s.InCall ∧ s.bitCursor = 0#3
  | .blkHdr => s.InWindow
  | .stHdr | .stCopy | .fxSetup | .dyCounts | .sym | .blkEnd => s.InBlock
  | .dyClen | .dyCltree | .dyTrees => s.InCounts
  | .dyLens => s.InCounts ∧ s.idx.toNat ≤ s.total.toNat
  | .lenX => s.InBlock ∧ 257 ≤ s.sym.toNat ∧ s.sym.toNat ≤ 285
  | .distSym => s.InPair
  | .distX => s.InPair ∧ s.dsym.toNat ≤ 29
  | .copy =>
    s.InPair ∧ (1 ≤ s.dist.toNat ∧ s.dist.toNat ≤ s.outLen) ∧ s.copyRem.toNat ≤ 258

/-- The invariant, its conditions on the block's state gathered in one clause. -/
structure State.Sound (s : State) : Prop where
  inWf : s.inMem.wf = true
  outWf : s.outMem.wf = true
  reader : s.reader.wf
  clLen : s.clLen.length = 19
  lens : s.lens.length = 320
  count : s.count.length = 16
  nextCode : s.nextCode.length = 16
  out : s.outLen ≤ s.par.outCap
  blocks : s.blocks ≤ s.par.blockCap
  stage : s.StageAt s.state

theorem State.busy_iff {s : State} :
    s.busy = true ↔ s.state = .zhdr ∨ s.state.windowSet = true := by
  unfold State.busy State.run
  cases s.state <;> decide

theorem BlockState.windowSet_of_inBlock {st : BlockState} (h : st.inBlock = true) :
    st.windowSet = true := by
  revert h; cases st <;> decide

section
variable {s : State} (h : s.Inv) {st : BlockState} (hst : s.state = st)
include h hst

theorem State.Inv.duringCall (hne : st ≠ .error) (hb : s.busy = true) : s.InCall :=
  ⟨h.errNone (hst ▸ hne), h.inLen hb⟩

theorem State.Inv.insideWindow (hw : st.windowSet = true) : s.InWindow :=
  ⟨h.duringCall hst (fun e => by rw [e] at hw; cases hw) (State.busy_iff.2 (.inr (hst ▸ hw))),
    h.window (hst ▸ hw)⟩

theorem State.Inv.insideBlock (hb : st.inBlock = true) : s.InBlock :=
  ⟨h.insideWindow hst (BlockState.windowSet_of_inBlock hb), h.inBlock (hst ▸ hb)⟩

end

theorem State.Inv.sound {s : State} (h : s.Inv) : s.Sound := by
  refine { h with stage := ?_ }
  cases hst : s.state with
  | idle | done => exact h.errNone (hst ▸ nofun)
  | error => exact h.errKind hst
  | zhdr => exact ⟨h.duringCall hst nofun (State.busy_iff.2 (.inl hst)), h.aligned hst⟩
  | blkHdr => exact h.insideWindow hst rfl
  | stHdr | stCopy | fxSetup | dyCounts | sym | blkEnd => exact h.insideBlock hst rfl
  | dyClen | dyCltree | dyTrees => exact ⟨h.insideBlock hst rfl, h.total (hst ▸ rfl)⟩
  | dyLens => exact ⟨⟨h.insideBlock hst rfl, h.total (hst ▸ rfl)⟩, h.idx hst⟩
  | lenX => exact ⟨h.insideBlock hst rfl, h.sym hst⟩
  | distSym => exact ⟨h.insideBlock hst rfl, h.length (hst ▸ rfl)⟩
  | distX => exact ⟨⟨h.insideBlock hst rfl, h.length (hst ▸ rfl)⟩, h.dsym hst⟩
  | copy => exact ⟨⟨h.insideBlock hst rfl, h.length (hst ▸ rfl)⟩, h.dist hst, h.copyRem hst⟩

section
variable {s : State} {st : BlockState} (h : s.StageAt st)
include h

theorem State.StageAt.inBlock (hb : st.inBlock = true) : s.InBlock := by
  cases st with
  | idle | zhdr | blkHdr | done | error => cases hb
  | dyLens | distX | copy => exact h.1.1
  | dyClen | dyCltree | dyTrees | lenX | distSym => exact h.1
  | _ => exact h

theorem State.StageAt.inWindow (hw : st.windowSet = true) : s.InWindow := by
  cases st with
  | idle | zhdr | done | error => cases hw
  | blkHdr => exact h
  | _ => exact (h.inBlock rfl).1

theorem State.StageAt.inCounts (hc : st.countsRead = true) : s.InCounts := by
  cases st with
  | dyClen | dyCltree | dyTrees => exact h
  | dyLens => exact h.1
  | _ => cases hc

theorem State.StageAt.inPair (hp : st.lengthKnown = true) : s.InPair := by
  cases st with
  | distSym => exact h
  | distX | copy => exact h.1
  | _ => cases hp

theorem State.StageAt.errNone (hne : st ≠ .error) : s.err = 0#4 := by
  cases st with
  | idle | done => exact h
  | error => exact absurd rfl hne
  | zhdr => exact h.1.1
  | _ => exact (h.inWindow rfl).1.1

end

theorem State.Sound.inCall {s : State} (h : s.Sound) (hb : s.busy = true) : s.InCall := by
  obtain hz | hw := State.busy_iff.1 hb
  · have hs := h.stage
    rw [hz] at hs
    exact hs.1
  · exact (h.stage.inWindow hw).1

theorem State.Sound.stage_of {s : State} {st : BlockState} (h : s.Sound) (hst : s.state = st) :
    s.StageAt st := hst ▸ h.stage

/-- The conditions gathered are those of the invariant, and back. -/
theorem State.Sound.inv {s : State} (h : s.Sound) : s.Inv :=
  { h with
    inBlock := fun hb => (h.stage.inBlock hb).2
    inLen := fun hb => (h.inCall hb).2
    window := fun hw => (h.stage.inWindow hw).2
    aligned := fun hst => (h.stage_of hst).2
    errNone := h.stage.errNone
    errKind := fun hst => h.stage_of hst
    total := fun hc => (h.stage.inCounts hc).2
    idx := fun hst => (h.stage_of hst).2
    sym := fun hst => (h.stage_of hst).2
    length := fun hp => (h.stage.inPair hp).2
    dsym := fun hst => (h.stage_of hst).2
    dist := fun hst => (h.stage_of hst).2.1
    copyRem := fun hst => (h.stage_of hst).2.2 }

theorem State.StageAt.of_state {s : State} {st : BlockState} (h : s.StageAt st)
    (hst : s.state = st) : s.StageAt s.state := hst.symm ▸ h

/-! Every step keeps it. -/

namespace State.Sound

variable {s t : State}

theorem raise (h : s.Sound) (k : ErrKind) : (s.raise k).Sound :=
  { h with stage := errCode_range k }

/-- The invariant does not speak of the host's queue. -/
theorem of_host (h : s.Sound) (ops : List HostOp) : State.Sound { s with host := ops } :=
  { h with stage := h.stage }

theorem of_readOn {s' : State} (h : s.Sound) (hr : s.ReadOn s') : s'.Sound := by
  by_cases hst : s.state = .zhdr
  · rw [hr.envelope hst]; exact h
  · obtain ⟨⟨r, hl, rfl⟩, -⟩ := hr
    refine { h with reader := ?_, stage := ?_ }
    · exact (State.reader_withReader hl.mem hl.limit).symm ▸ hl.wf h.reader
    · have hs := h.stage
      show State.StageAt _ s.state
      generalize s.state = st at hst hs ⊢
      cases st with
      | zhdr => exact absurd rfl hst
      | _ => exact hs

/-- OutAppend keeps the invariant where what comes after it does; a distance in reach stays so. -/
theorem outAppend {v : Byte} {next : State → State} (h : s.Sound)
    (hnext : State.Sound { s with outMem := s.outMem.write s.outLen v, outLen := s.outLen + 1 } →
      (next { s with outMem := s.outMem.write s.outLen v, outLen := s.outLen + 1 }).Sound) :
    (s.outAppend v next).Sound := by
  obtain ⟨-, e⟩ | ⟨hne, e⟩ := s.outAppend_cases v next <;> rw [e]
  · exact h.raise _
  · refine hnext { h with
      outWf := Mem.write_wf _ _ h.outWf, out := Nat.lt_of_le_of_ne h.out hne, stage := ?_ }
    have hs := h.stage
    show State.StageAt _ s.state
    generalize s.state = st at hs ⊢
    cases st with
    | copy => exact ⟨hs.1, ⟨hs.2.1.1, Nat.le_succ_of_le hs.2.1.2⟩, hs.2.2⟩
    | _ => exact hs

end State.Sound

end Sys2Proof.Machine
end

section
/-! SUPPORT. The invariant kept by every element, every row and every access of the host. -/

namespace Sys2Proof.Machine

open State.StageAt (of_state)

/-- With its invariant the block decides a literal/length symbol in SYM alone. -/
theorem State.Sound.atSymbol {s : State} (h : s.Sound) (ha : s.atSymbol) : s.state = .sym := by
  obtain hst | ⟨hst, hn⟩ := ha
  · exact hst
  · exact absurd (isLength_iff.2 (h.stage_of hst).2) (by simp [hn])

/-- With its invariant the block decides a distance symbol in DIST_SYM alone. -/
theorem State.Sound.atDistSymbol {s : State} (h : s.Sound) (ha : s.atDistSymbol) :
    s.state = .distSym := by
  obtain hst | ⟨hst, hn⟩ := ha
  · exact hst
  · exact absurd (h.stage_of hst).2 hn

theorem totalOf_toNat (a b : BitVec 5) : (totalOf a b).toNat = a.toNat + b.toNat + 258 := by
  have := a.isLt
  have := b.isLt
  rw [totalOf, BitVec.toNat_ofNat]
  omega

/-- A repeat stays within `total`, or faults. -/
theorem State.Sound.repeatLen {s : State} (h : s.Sound) (hst : s.state = .dyLens) (v : BitVec 4)
    (n : BitVec 8) : (s.repeatLen v n).Sound := by
  obtain ⟨hc, -⟩ := h.stage_of hst
  obtain ⟨-, e⟩ | ⟨hle, e⟩ := s.repeatLen_cases v n <;> rw [e]
  · exact { h with stage := errCode_range _ }
  · have := s.total.isLt
    refine { h with
      lens := (fill_length ..).trans h.lens, stage := of_state (st := .dyLens) ⟨hc, ?_⟩ hst }
    rw [BitVec.toNat_ofNat, Nat.mod_eq_of_lt (by omega)]
    exact hle

/-- Every element that suits the state keeps the invariant. -/
theorem exec_sound {s t : State} {i : Instr} (h : s.Sound) (hr : Reads s i)
    (he : exec i s = .next t) : t.Sound := by
  cases hr with
  | zhdr hst =>
    cases he
    split
    · exact h.raise _
    · exact { h with
        reader := ⟨by simpa [State.reader] using Nat.le_of_not_lt ‹_›, fun hne => absurd rfl hne⟩
        stage := of_state (st := .zhdr) ⟨(h.stage_of hst).1, rfl⟩ hst }
  | dictid hst =>
    obtain ⟨hcall, h0⟩ := h.stage_of hst
    cases he
    split
    · exact h.raise _
    · exact { h with
        reader := ⟨Nat.le_of_not_lt ‹_›, fun hne => absurd h0 hne⟩
        stage := of_state (st := .zhdr) ⟨hcall, h0⟩ hst }
  | adler hst =>
    cases he
    split
    · exact h.raise _
    · exact { h with
        reader := ⟨Nat.le_sub_of_add_le (Nat.le_of_not_lt ‹_›), fun hne => absurd rfl hne⟩
        stage := ⟨(h.stage_of hst).1, Nat.sub_le ..⟩ }
  | blockStored hst hc =>
    cases he; exact { h with stage := ⟨h.stage_of hst, Nat.lt_of_le_of_ne h.blocks hc⟩ }
  | blockFixed hst hc =>
    cases he; exact { h with stage := ⟨h.stage_of hst, Nat.lt_of_le_of_ne h.blocks hc⟩ }
  | blockDynamic hst hc =>
    cases he; exact { h with stage := ⟨h.stage_of hst, Nat.lt_of_le_of_ne h.blocks hc⟩ }
  | blockReserved => cases he; exact { h with stage := errCode_range _ }
  | pad hst =>
    cases he
    have hl := s.reader.align_later
    exact { h with
      reader := (State.reader_withReader hl.mem hl.limit).symm ▸ hl.wf h.reader
      stage := of_state (st := .stHdr) (h.stage_of hst) hst }
  | len16 hst => cases he; exact { h with stage := of_state (st := .stHdr) (h.stage_of hst) hst }
  | nlen16 hst =>
    cases he
    dsimp only
    split
    · exact { h with stage := errCode_range _ }
    · exact { h with stage := h.stage_of hst }
  | byte hst =>
    cases he
    exact h.outAppend fun h' => { h' with
      stage := of_state (st := .stCopy) (h'.stage_of hst) hst }
  | hlit hst => cases he; exact { h with stage := of_state (st := .dyCounts) (h.stage_of hst) hst }
  | hdist hst => cases he; exact { h with stage := of_state (st := .dyCounts) (h.stage_of hst) hst }
  | hclen hst => cases he; exact { h with stage := ⟨h.stage_of hst, totalOf_toNat ..⟩ }
  | cllen hst =>
    cases he; exact { h with clLen := (permute_length ..).trans rfl, stage := h.stage_of hst }
  | cl hst hi =>
    cases he
    have := s.total.isLt
    refine { h with
      lens := List.length_set.trans h.lens
      stage := of_state (st := .dyLens) ⟨(h.stage_of hst).1, ?_⟩ hst }
    show (s.idx + 1#9).toNat ≤ s.total.toNat
    rw [BitVec.toNat_add, BitVec.toNat_ofNat]
    omega
  | cl16 hst =>
    cases he
    split
    · exact h.raise _
    · exact h.repeatLen hst _ _
  | cl17 hst => cases he; exact h.repeatLen hst _ _
  | cl18 hst => cases he; exact h.repeatLen hst _ _
  | lit ha =>
    cases he
    have hst := h.atSymbol ha
    exact State.Sound.outAppend { h with stage := of_state (st := .sym) (h.stage_of hst) hst } id
  | eob ha => cases he; exact { h with stage := h.stage_of (h.atSymbol ha) }
  | llsym286 => cases he; exact { h with stage := errCode_range _ }
  | llsym287 => cases he; exact { h with stage := errCode_range _ }
  | dsym30 => cases he; exact { h with stage := errCode_range _ }
  | dsym31 => cases he; exact { h with stage := errCode_range _ }
  | length hst hp =>
    cases (exec_of_lengthParts hp s).symm.trans he
    exact { h with stage := ⟨(h.stage_of hst).1, (Laws.operandRange i).1 _ hp⟩ }
  | @dist _ y hst hp =>
    cases (exec_of_distParts hp s).symm.trans he
    obtain ⟨hpair, -⟩ := h.stage_of hst
    obtain ⟨-, e⟩ | ⟨hle, e⟩ := s.takeDist_cases s.dsym.toNat y <;> rw [e]
    · exact { h with stage := errCode_range _ }
    · exact { h with stage := ⟨hpair, ⟨((Laws.operandRange i).2.1 _ hp).1, hle⟩, hpair.2.2⟩ }

/-- A build leaves scratch of the right sizes. -/
theorem State.Sound.withScratch {s : State} (h : s.Sound) (bl : List Nat) :
    (s.withScratch (buildTree bl)).Sound :=
  { h with count := (buildTree_scratch bl).1, nextCode := (buildTree_scratch bl).2 }

theorem Act.sound {s t : State} (h : s.Sound) (a : Act s t) : t.Sound := by
  cases a with
  | elem hr he => exact exec_sound h hr he
  | raised => exact h.raise _
  | rest => exact h
  | storedEnd hst => exact { h with stage := h.stage_of hst }
  | fixedSetup hst => exact { h.withScratch fixedDLen with stage := h.stage_of hst }
  | clTree hst =>
    exact { h.withScratch (s.clLen.map BitVec.toNat) with
      stage := ⟨h.stage_of hst, Nat.zero_le _⟩ }
  | lensEnd hst => exact { h with stage := (h.stage_of hst).1 }
  | trees hst => exact { h.withScratch s.dLens with stage := (h.stage_of hst).1 }
  | lengthSymbol hst hy => exact { h with stage := ⟨h.stage_of hst, isLength_iff.1 hy⟩ }
  | @distSymbol d hst hd =>
    refine { h with stage := ⟨h.stage_of hst, ?_⟩ }
    exact (BitVec.toNat_setWidth 5 d).trans_le ((Nat.mod_le ..).trans hd)
  | copy hst he =>
    obtain ⟨hpair, hdist, hrem⟩ := h.stage_of hst
    obtain ⟨-, rfl⟩ | ⟨hne, -, -, rfl⟩ := rowCopy_cases he
    · exact { h with stage := hpair.1 }
    · refine h.outAppend fun h' => { h' with
        stage := of_state (st := .copy) ⟨(h'.stage_of hst).1, (h'.stage_of hst).2.1, ?_⟩ hst }
      have : s.copyRem.toNat ≠ 0 := fun e => hne (BitVec.eq_of_toNat_eq e)
      rw [BitVec.toNat_sub_of_le (by simp [BitVec.le_def]; omega)]
      exact (Nat.sub_le ..).trans hrem
  | blockEnd hst =>
    obtain ⟨hw, hlt⟩ := h.stage_of hst
    refine { h with blocks := hlt, stage := ?_ }
    unfold rowBlockEnd
    cases s.bfinal
    · exact hw
    · exact hw.1.1

theorem fetchBlock_sound {s t : State} (h : s.Sound) (he : (fetchBlock s).outcome = .next t) :
    t.Sound := by
  obtain ⟨s', hr, a⟩ := fetchBlock_next he
  exact a.sound (h.of_readOn hr)

/-- A write of CTRL is a START or nothing but a write of MODE. -/
theorem decodeCtrl_some {v : BitVec 32} {i : Instr} (h : decodeCtrl v = some i) :
    v.getLsbD 0 = true ∧ ∃ m, i = .start m := by
  unfold decodeCtrl at h
  split at h
  · rename_i h0; cases h; exact ⟨h0, _, rfl⟩
  · cases h

theorem decodeCtrl_none {v : BitVec 32} (h : v.getLsbD 0 = false) : decodeCtrl v = none := by
  rw [decodeCtrl, h]; rfl

theorem fetchHost_start {v : BitVec 32} {i : Instr} (s : State) (h : decodeCtrl v = some i) :
    fetchHost (.writeCtrl v) s = .elem i s := by
  simp only [fetchHost, h]

theorem fetchHost_mode {v : BitVec 32} (s : State) (h : decodeCtrl v = none) :
    fetchHost (.writeCtrl v) s = .row (hostWriteMode v s) := by
  simp only [fetchHost, h]

/-- The three states in which the host may write the input and the output. -/
theorem State.not_busy_iff {s : State} :
    s.busy = false ↔ s.state = .idle ∨ s.state = .done ∨ s.state = .error := by
  unfold State.busy State.run
  cases s.state <;> decide

namespace State.Sound

variable {s t : State}

/-- What the invariant says of a block that is not BUSY, it says of `err` alone. -/
theorem stage_not_busy (h : s.Sound) (hb : s.busy = false) (he : t.err = s.err)
    (hst : t.state = s.state) : t.StageAt t.state := by
  have hs := h.stage
  rw [hst]
  obtain e | e | e := State.not_busy_iff.1 hb <;> rw [e] at hs ⊢ <;>
    simpa only [State.StageAt, he] using hs

theorem start (h : s.Sound) {m : Mode} (he : exec (.start m) s = .next t) : t.Sound := by
  by_cases hb : s.busy = true
  · cases (if_pos hb).symm.trans he
    exact { h with stage := h.stage }
  by_cases hc : s.par.inCap < s.inLen
  · cases ((if_neg hb).trans (if_pos hc)).symm.trans he
  cases ((if_neg hb).trans (if_neg hc)).symm.trans he
  have hcap := Nat.le_of_not_lt hc
  cases m with
  | raw =>
    exact { h with
      reader := ⟨Nat.zero_le _, fun hne => absurd rfl hne⟩, out := Nat.zero_le _
      blocks := Nat.zero_le _, stage := ⟨⟨rfl, hcap⟩, le_rfl⟩ }
  | zlib =>
    exact { h with
      reader := ⟨h.reader.1, fun hne => absurd rfl hne⟩, out := Nat.zero_le _
      blocks := Nat.zero_le _, stage := ⟨⟨rfl, hcap⟩, rfl⟩ }

theorem toReset (h : s.Sound) : s.toReset.Sound :=
  { h with
    reader := ⟨le_rfl, fun hne => absurd rfl hne⟩, out := Nat.zero_le _
    blocks := Nat.zero_le _, stage := rfl }

/-- The value a read returns is no part of the invariant. -/
theorem of_answer (h : s.Sound) (v f : Nat) :
    State.Sound { s with hostData := v, free := f } :=
  { h with stage := h.stage }

end State.Sound

theorem hostReadReg_sound {r : HostReg} {s t : State} (h : s.Sound)
    (he : hostReadReg r s = .next t) : t.Sound := by
  cases he
  cases r with
  | ctrl | inLen | status => exact h.of_answer _ _
  | err => dsimp only; split <;> exact h.of_answer _ _
  | outLen => dsimp only; split <;> exact h.of_answer _ _

/-- Every access of the host keeps the invariant. -/
theorem fetchHost_sound {op : HostOp} {s t : State} (h : s.Sound)
    (he : (fetchHost op s).outcome = .next t) : t.Sound := by
  cases op with
  | run => exact fetchBlock_sound h he
  | writeCtrl v =>
    cases hd : decodeCtrl v with
    | none => rw [fetchHost_mode s hd] at he; cases he; exact { h with stage := h.stage }
    | some i =>
      obtain ⟨-, m, rfl⟩ := decodeCtrl_some hd
      rw [fetchHost_start s hd] at he
      exact h.start he
  | writeInLen n =>
    by_cases hb : s.busy = true
    · cases (if_pos hb).symm.trans he
    · cases (if_neg hb).symm.trans he
      exact { h with stage := h.stage_not_busy (by simpa using hb) rfl rfl }
  | writeIn a v =>
    by_cases hb : s.busy = true
    · cases (if_pos hb).symm.trans he
    by_cases ha : s.par.inCap ≤ a
    · cases ((if_neg hb).trans (if_pos ha)).symm.trans he
    · cases ((if_neg hb).trans (if_neg ha)).symm.trans he
      exact { h with inWf := Mem.write_wf _ _ h.inWf, stage := h.stage }
  | writeOut a v =>
    by_cases hb : s.busy = true
    · cases (if_pos hb).symm.trans he
    by_cases ha : s.par.outCap ≤ a
    · cases ((if_neg hb).trans (if_pos ha)).symm.trans he
    · cases ((if_neg hb).trans (if_neg ha)).symm.trans he
      exact { h with outWf := Mem.write_wf _ _ h.outWf, stage := h.stage }
  | readReg r => exact hostReadReg_sound h he
  | readOut a =>
    by_cases ha : s.par.outCap ≤ a
    · cases (if_pos ha).symm.trans he
    by_cases hd : s.run = .done ∧ a < s.outLen
    · cases ((if_neg ha).trans (if_pos hd)).symm.trans he
      exact h.of_answer _ _
    · cases ((if_neg ha).trans (if_neg hd)).symm.trans he
      exact h.of_answer _ _
  | assertReset => cases he; exact h.toReset

theorem step_sound {s t : State} (h : s.Sound) (he : step s = .next t) : t.Sound := by
  cases hh : s.host with
  | nil => exact fetchBlock_sound h ((step_of_host_nil hh).symm.trans he)
  | cons op ops => exact fetchHost_sound (h.of_host ops) ((step_of_host_cons hh).symm.trans he)

/-- Settles O57: every element, row and access of the host keeps the invariant. -/
theorem invKeptByStep : Obligations.InvKeptByStep :=
  fun _ _ h he => (step_sound h.sound he).inv

end Sys2Proof.Machine
end

section
/-! SUPPORT. The host's port: what its reads return, what its writes do, and the state after reset. -/

namespace Sys2Proof.Machine

/-- Settles O42: `exec` of START is one test of BUSY and then one of `IN_LEN`. -/
theorem startIgnoredOrRefused : Obligations.StartIgnoredOrRefused := fun s _ =>
  ⟨fun hb => if_pos hb, fun hb hc => (if_neg (by simp [hb])).trans (if_pos hc)⟩

/-- Settles O44: each field as `State.reset` writes it, and IDLE rests. -/
theorem resetState : Obligations.ResetState := by
  unfold Obligations.ResetState
  refine ⟨rfl, rfl, rfl, rfl, rfl, rfl, rfl, rfl, rfl, rfl, rfl, rfl, rfl, rfl, rfl, rfl, rfl, rfl,
    rfl, rfl, rfl, rfl, rfl, rfl, rfl, rfl, rfl, ?_⟩
  rw [step_of_host_nil rfl, fetchBlock_of_not_busy rfl, Fetch.outcome]

/-- The reset state, its registers by 10_state.md R30 and its arrays by the model's choice. -/
theorem reset_sound : State.reset.Sound where
  inWf := rfl
  outWf := rfl
  reader := ⟨le_rfl, fun hne => absurd rfl hne⟩
  clLen := List.length_replicate
  lens := List.length_replicate
  count := List.length_replicate
  nextCode := List.length_replicate
  out := Nat.zero_le _
  blocks := Nat.zero_le _
  stage := rfl

/-- Settles O56: the invariant by `reset_sound`, the empty arenas by their definition. -/
theorem invAtReset : Obligations.InvAtReset :=
  ⟨reset_sound.inv, rfl, rfl, rfl, Nat.zero_le _, Nat.zero_le _, Nat.zero_le _⟩

section
variable {s : State} {ops : List HostOp}

theorem step_readReg {r : HostReg} (h : s.host = .readReg r :: ops) :
    step s = hostReadReg r { s with host := ops } := step_of_host_cons h

theorem step_readOut {a : Nat} (h : s.host = .readOut a :: ops) :
    step s = hostReadOut a { s with host := ops } := step_of_host_cons h

theorem step_writeInLen {n : Nat} (h : s.host = .writeInLen n :: ops) (hb : s.busy = false) :
    step s = .next { s with host := ops, inLen := n % 2 ^ s.par.wIn } :=
  (step_of_host_cons h).trans (if_neg (ne_true_of_eq_false hb))

theorem step_writeIn {a : Nat} {v : Byte} (h : s.host = .writeIn a v :: ops) (hb : s.busy = false)
    (ha : a < s.par.inCap) :
    step s = .next { s with host := ops, inMem := s.inMem.write a v } :=
  (step_of_host_cons h).trans
    ((if_neg (ne_true_of_eq_false hb)).trans (if_neg (Nat.not_le_of_lt ha)))

theorem step_writeOut {a : Nat} {v : Byte} (h : s.host = .writeOut a v :: ops)
    (hb : s.busy = false) (ha : a < s.par.outCap) :
    step s = .next { s with host := ops, outMem := s.outMem.write a v } :=
  (step_of_host_cons h).trans
    ((if_neg (ne_true_of_eq_false hb)).trans (if_neg (Nat.not_le_of_lt ha)))

end

theorem State.readCtrl_eq (s : State) : s.readCtrl = if s.mode = .zlib then 2 else 0 := by
  unfold State.readCtrl
  cases s.mode <;> rfl

theorem State.readStatus_eq (s : State) :
    s.readStatus =
      if s.state = .idle then 0 else if s.state = .done then 2 else if s.state = .error then 3
      else 1 := by
  unfold State.readStatus State.run
  cases s.state <;> rfl

/-- OUT_LEN is free while BUSY and in ERROR (10_state.md R20). -/
theorem State.outLenFree_iff {s : State} :
    (s.busy || s.run == .error) = true ↔ s.busy = true ∨ s.state = .error := by
  unfold State.busy State.run
  cases s.state <;> decide

theorem State.run_done_iff {s : State} : s.run = .done ↔ s.state = .done := by
  unfold State.run
  cases s.state <;> decide

/-- Settles O45: each read by its own arm of the port. -/
theorem hostReadsReturn : Obligations.HostReadsReturn := by
  intro s ops
  refine ⟨fun h => ?_, fun h => ?_, fun h => ?_, fun h hb => ?_, fun h hst => ?_,
    fun a h hst ha hcap => ?_⟩
  · rw [step_readReg h, ← s.readCtrl_eq]; rfl
  · rw [step_readReg h]; rfl
  · rw [step_readReg h, ← s.readStatus_eq]; rfl
  · rw [step_readReg h]
    exact congrArg _ (if_neg (ne_true_of_eq_false hb))
  · rw [step_readReg h]
    refine congrArg _ (if_neg (mt State.outLenFree_iff.1 ?_))
    show ¬(s.busy = true ∨ s.state = .error)
    unfold State.busy State.run
    obtain e | e := hst <;> rw [e] <;> decide
  · rw [step_readOut h]
    exact (if_neg (Nat.not_le_of_lt hcap)).trans (if_pos ⟨State.run_done_iff.2 hst, ha⟩)

/-- Settles O46: each such read draws a free value, cut to the width. -/
theorem unspecifiedReadsReturnSome : Obligations.UnspecifiedReadsReturnSome := by
  intro s ops
  refine ⟨fun h hb => ?_, fun h hst => ?_, fun a h hcap hn => ?_⟩
  · rw [step_readReg h]
    exact ⟨_, Nat.mod_lt _ (by decide), congrArg _ (if_pos hb)⟩
  · rw [step_readReg h]
    exact ⟨_, Nat.mod_lt _ (Nat.two_pow_pos _), congrArg _ (if_pos (State.outLenFree_iff.2 hst))⟩
  · rw [step_readOut h]
    refine ⟨_, Nat.mod_lt _ (by decide),
      (if_neg (Nat.not_le_of_lt hcap)).trans (if_neg fun hd => ?_)⟩
    obtain hn | hn := hn
    · exact hn (State.run_done_iff.1 hd.1)
    · exact Nat.not_lt_of_le hn hd.2

/-- `IN_CAP` fits the width of IN_LEN (00_scope.md R5). -/
theorem inCap_lt_two_pow_wIn (p : Params) : p.inCap < 2 ^ p.wIn := Nat.lt_log2_self

/-- Settles O47: each write by its own arm of the port, the bytes by the law of a write. -/
theorem hostWritesTaken : Obligations.HostWritesTaken := by
  intro s ops
  refine ⟨fun v h h0 => ?_, fun n h hb hn => ?_, fun n h hb _ => step_writeInLen h hb,
    fun a v h hb ha hwf => ?_, fun a v h hb ha hwf => ?_⟩
  · rw [step_of_host_cons h, fetchHost_mode _ (decodeCtrl_none h0)]
    rfl
  · rw [step_writeInLen h hb,
      Nat.mod_eq_of_lt (hn.trans_lt (inCap_lt_two_pow_wIn s.par))]
  · exact ⟨_, step_writeIn h hb ha, rfl, Mem.write_wf a v hwf, fun b => Mem.read_write a b v hwf⟩
  · exact ⟨_, step_writeOut h hb ha, rfl, Mem.write_wf a v hwf, fun b => Mem.read_write a b v hwf⟩

end Sys2Proof.Machine
end

section
/-! SUPPORT. Two readers that agree on their cursor and on the bytes of their window read the same. -/

namespace Sys2Proof

/-- The same cursor over the same window, whatever lies outside it. -/
structure Reader.Agree (r r' : Reader) : Prop where
  byteCursor : r'.byteCursor = r.byteCursor
  bitCursor : r'.bitCursor = r.bitCursor
  limit : r'.limit = r.limit
  mem : ∀ a < r.limit, r'.mem.read a = r.mem.read a

/-- The same value or the same fault, and readers that still agree. -/
inductive Read.Agree {α : Type} : Read α → Read α → Prop
  | ok {a : α} {r r' : Reader} (h : r.Agree r') : Read.Agree (.ok a r) (.ok a r')
  | raise {k : ErrKind} {r r' : Reader} (h : r.Agree r') : Read.Agree (.raise k r) (.raise k r')

theorem Read.Agree.bind {α β : Type} {x y : Read α} {f : α → Reader → Read β} (h : x.Agree y)
    (hf : ∀ a (r r' : Reader), r.Agree r' → (f a r).Agree (f a r')) :
    (x.bind f).Agree (y.bind f) := by
  cases h with
  | ok h => exact hf _ _ _ h
  | raise h => exact .raise h

namespace Reader.Agree

theorem nextBit {r r' : Reader} (h : r.Agree r') : r.nextBit.Agree r'.nextBit := by
  obtain ⟨hb, hk, hl, hm⟩ := h
  unfold Reader.nextBit
  rw [hb, hk, hl]
  split
  · exact .raise ⟨hb, hk, hl, hm⟩
  · rw [hm _ (by omega)]
    dsimp only
    split
    · exact .ok ⟨rfl, rfl, rfl, hm⟩
    · exact .ok ⟨rfl, rfl, rfl, hm⟩

theorem nextBits : ∀ (n : Nat) {r r' : Reader}, r.Agree r' → (r.nextBits n).Agree (r'.nextBits n)
  | 0, _, _, h => .ok h
  | n + 1, _, _, h => h.nextBit.bind fun _ _ _ h => (nextBits n h).bind fun _ _ _ h => .ok h

theorem align {r r' : Reader} (h : r.Agree r') : r.align.Agree r'.align := by
  obtain ⟨hb, hk, hl, hm⟩ := h
  unfold Reader.align
  rw [hk]
  split
  · exact ⟨hb, hk, hl, hm⟩
  · exact ⟨congrArg (· + 1) hb, rfl, hl, hm⟩

theorem nextByte {r r' : Reader} (h : r.Agree r') : r.nextByte.Agree r'.nextByte := by
  obtain ⟨hb, hk, hl, hm⟩ := h.align
  unfold Reader.nextByte
  dsimp only
  rw [hb, hl]
  split
  · exact .raise ⟨hb, hk, hl, hm⟩
  · rw [hm _ (by omega)]
    exact .ok ⟨rfl, hk, rfl, hm⟩

theorem nextBytesAsNumber : ∀ (n : Nat) {r r' : Reader}, r.Agree r' →
    (r.nextBytesAsNumber n).Agree (r'.nextBytesAsNumber n)
  | 0, _, _, h => .ok h
  | n + 1, _, _, h =>
    h.nextByte.bind fun _ _ _ h => (nextBytesAsNumber n h).bind fun _ _ _ h => .ok h

theorem arrive : ∀ (t : Tree) {r r' : Reader}, r.Agree r' → (t.arrive r).Agree (t.arrive r')
  | .nil, _, _, h => .raise h
  | .node (some _) _ _, _, _, h => .ok h
  | .node none c0 c1, r, r', h => by
    have hn := h.nextBit
    unfold Tree.arrive
    generalize r.nextBit = x at hn
    generalize r'.nextBit = y at hn
    cases hn with
    | raise h => exact .raise h
    | @ok b _ _ h =>
      cases b
      · exact arrive c0 h
      · exact arrive c1 h

theorem decodeSymbol (t : Tree) {r r' : Reader} (h : r.Agree r') :
    (t.decodeSymbol r).Agree (t.decodeSymbol r') := arrive t.asRoot h

theorem rawField (n : Nat) (f : Nat → Instr) {r r' : Reader} (h : r.Agree r') :
    (rawField n f r).Agree (rawField n f r') := (nextBits n h).bind fun _ _ _ h => .ok h

theorem decodeHeader {r r' : Reader} (h : r.Agree r') :
    (decodeHeader r).Agree (decodeHeader r') :=
  h.nextBit.bind fun _ _ _ h => (nextBits 2 h).bind fun _ _ _ h => by
    split <;> exact .ok h

theorem decodeClLens : ∀ (n : Nat) {r r' : Reader}, r.Agree r' →
    (decodeClLens n r).Agree (decodeClLens n r')
  | 0, _, _, h => .ok h
  | n + 1, _, _, h =>
    (nextBits 3 h).bind fun _ _ _ h => (decodeClLens n h).bind fun _ _ _ h => .ok h

theorem clElement (first : Bool) (y : BitVec 9) {r r' : Reader} (h : r.Agree r') :
    (clElement first y r).Agree (clElement first y r') := by
  unfold Sys2Proof.clElement
  split
  · exact .ok h
  split
  · split
    · exact .raise h
    · exact h.rawField ..
  split
  · exact h.rawField ..
  split
  · exact h.rawField ..
  · exact .raise h

theorem llElement (y : Nat) {r r' : Reader} (h : r.Agree r') :
    (llElement y r).Agree (llElement y r') := by
  unfold Sys2Proof.llElement
  split
  · exact .ok h
  split
  · exact .ok h
  split
  · exact h.rawField ..
  split
  · exact .ok h
  split
  · exact .ok h
  · exact .raise h

theorem dElement (d : Nat) {r r' : Reader} (h : r.Agree r') :
    (dElement d r).Agree (dElement d r') := by
  unfold Sys2Proof.dElement
  split
  · exact h.rawField ..
  split
  · exact .ok h
  split
  · exact .ok h
  · exact .raise h

/-- The element at the cursor is a function of the cursor and the window. -/
theorem decode (e : Expect) {r r' : Reader} (h : r.Agree r') :
    (decode e r).Agree (decode e r') := by
  cases e with
  | header => exact h.decodeHeader
  | pad => exact .ok h.align
  | len16 => exact (nextBytesAsNumber 2 h).bind fun _ _ _ h => .ok h
  | nlen16 => exact (nextBytesAsNumber 2 h).bind fun _ _ _ h => .ok h
  | byte => exact h.nextByte.bind fun _ _ _ h => .ok h
  | hlit => exact h.rawField ..
  | hdist => exact h.rawField ..
  | hclen => exact h.rawField ..
  | cllen n => exact (decodeClLens n h).bind fun _ _ _ h => .ok h
  | clSym t first => exact (h.decodeSymbol t).bind fun _ _ _ h => h.clElement ..
  | llSym t => exact (h.decodeSymbol t).bind fun _ _ _ h => h.llElement _
  | lenX y => exact h.llElement y
  | dSym t => exact (h.decodeSymbol t).bind fun _ _ _ h => h.dElement _
  | distX d => exact h.dElement d

end Reader.Agree

end Sys2Proof
end

section
/-! SUPPORT. Two calls with the same input, step by step: the registers that matter in each state of the
block agree, whatever earlier calls left in the others (10_state.md R31). -/

namespace Sys2Proof.Machine

/-- The same cursor and window. -/
abbrev State.SameCursor (s t : State) : Prop :=
  t.byteCursor = s.byteCursor ∧ t.bitCursor = s.bitCursor ∧ t.limit = s.limit

/-- The same dynamic header so far, all its counts read (42_block_state_machine.md R115). -/
abbrev State.SameCounts (s t : State) : Prop :=
  t.bfinal = s.bfinal ∧ t.hlit = s.hlit ∧ t.hdist = s.hdist ∧ t.total = s.total

/-- The same trees of a block (42_block_state_machine.md R114, R124). -/
abbrev State.SameTrees (s t : State) : Prop := t.bfinal = s.bfinal ∧ t.llt = s.llt ∧ t.dt = s.dt

/-- The registers, besides the cursor, that the block may still read from the state `st` on: on these
the two calls agree. -/
def State.LiveAt (s t : State) : BlockState → Prop
  | .idle | .zhdr | .blkHdr | .done | .error => True
  | .stHdr => t.bfinal = s.bfinal ∧ (s.part = .third → t.stLen = s.stLen)
  | .stCopy => t.bfinal = s.bfinal ∧ t.stRem = s.stRem
  | .fxSetup | .blkEnd => t.bfinal = s.bfinal
  | .dyCounts =>
    t.bfinal = s.bfinal ∧ (s.part ≠ .first → t.hlit = s.hlit) ∧
      (s.part = .third → t.hdist = s.hdist)
  | .dyClen => s.SameCounts t ∧ t.hclen = s.hclen
  | .dyCltree => s.SameCounts t ∧ t.clLen = s.clLen
  | .dyLens =>
    s.SameCounts t ∧ t.clt = s.clt ∧ t.idx = s.idx ∧
      t.lens.take s.idx.toNat = s.lens.take s.idx.toNat
  | .dyTrees => s.SameCounts t ∧ t.lens.take s.total.toNat = s.lens.take s.total.toNat
  | .sym => s.SameTrees t
  | .lenX => s.SameTrees t ∧ t.sym = s.sym
  | .distSym => s.SameTrees t ∧ t.length = s.length
  | .distX => s.SameTrees t ∧ t.length = s.length ∧ t.dsym = s.dsym
  | .copy => s.SameTrees t ∧ t.dist = s.dist ∧ t.copyRem = s.copyRem

theorem State.LiveAt.of_state {s t : State} {st : BlockState} (h : s.LiveAt t st)
    (hst : s.state = st) : s.LiveAt t s.state := hst.symm ▸ h

/-- Whether the cursor is the call's own: from the envelope's first element on. -/
def State.cursorSet (s : State) : Bool := s.state.windowSet || s.state == .zhdr && s.part != .first

/-- Two states of calls with the same input, as far as the calls may still look. -/
structure State.SameCall (s t : State) : Prop where
  par : t.par = s.par
  inLen : t.inLen = s.inLen
  state : t.state = s.state
  part : t.part = s.part
  err : t.err = s.err
  blocks : t.blocks = s.blocks
  outLen : t.outLen = s.outLen
  input : ∀ a < s.inLen, t.inMem.read a = s.inMem.read a
  output : ∀ a < s.outLen, t.outMem.read a = s.outMem.read a
  cursor : s.cursorSet = true → s.SameCursor t
  live : s.LiveAt t s.state

/-- The same next state, in this sense. -/
inductive SameNext : Out → Out → Prop
  | next {s t : State} (h : s.SameCall t) : SameNext (.next s) (.next t)

namespace State.SameCall

variable {s t : State}

theorem live_of (h : s.SameCall t) {st : BlockState} (hst : s.state = st) : s.LiveAt t st :=
  hst ▸ h.live

theorem cursor_of (h : s.SameCall t) (hw : s.state.windowSet = true) : s.SameCursor t :=
  h.cursor (by simp [State.cursorSet, hw])

theorem cursor_at (h : s.SameCall t) {st : BlockState} (hst : s.state = st)
    (hw : st.windowSet = true) : s.SameCursor t := h.cursor_of (hst ▸ hw)

theorem raise (h : s.SameCall t) (k : ErrKind) : (s.raise k).SameCall (t.raise k) :=
  { h with err := rfl, state := rfl, cursor := nofun, live := trivial }

/-- The readers of the two calls agree (20_memory.md R45: the window lies inside the input). -/
theorem reader (h : s.SameCall t) (hs : s.Sound) (hw : s.state.windowSet = true) :
    s.reader.Agree t.reader := by
  obtain ⟨hb, hk, hl⟩ := h.cursor_of hw
  exact ⟨hb, hk, hl, fun a ha => h.input a (Nat.lt_of_lt_of_le ha (hs.stage.inWindow hw).2)⟩

/-- They agree after a read that did. -/
theorem withReader (h : s.SameCall t) (hw : s.state.windowSet = true) {r r' : Reader}
    (hr : r.Agree r') : (s.withReader r).SameCall (t.withReader r') :=
  { h with
    cursor := fun _ => ⟨hr.byteCursor, hr.bitCursor, (h.cursor_of hw).2.2⟩
    live := h.live }

/-- The same test decides both calls alike. -/
theorem ite {c c' : Prop} [Decidable c] [Decidable c'] {a a' b b' : State} (hc : c' ↔ c)
    (ha : c → a.SameCall a') (hb : ¬c → b.SameCall b') :
    (if c then a else b).SameCall (if c' then a' else b') := by
  by_cases h : c
  · rw [if_pos h, if_pos (hc.2 h)]; exact ha h
  · rw [if_neg h, if_neg (mt hc.1 h)]; exact hb h

/-- The same byte appended to outputs that agree. -/
theorem outAppend {v : Byte} {f g : State → State} (h : s.SameCall t) (hs : s.Sound) (ht : t.Sound)
    (hfg : ∀ m m' : Mem,
      (State.SameCall { s with outMem := m, outLen := s.outLen + 1 }
        { t with outMem := m', outLen := t.outLen + 1 }) →
      (f { s with outMem := m, outLen := s.outLen + 1 }).SameCall
        (g { t with outMem := m', outLen := t.outLen + 1 })) :
    (s.outAppend v f).SameCall (t.outAppend v g) := by
  refine ite (by rw [h.outLen, h.par]) (fun _ => h.raise _) fun _ => hfg _ _ { h with
    outLen := congrArg (· + 1) h.outLen, output := fun a ha => ?_, live := h.live }
  rw [Mem.read_write _ _ _ hs.outWf, Mem.read_write _ _ _ ht.outWf, h.outLen]
  split
  · rfl
  · exact h.output a (Nat.lt_of_le_of_ne (Nat.le_of_lt_succ ha) ‹_›)

end State.SameCall

/-- The first entries after a store at their end. -/
theorem take_set_succ {α : Type} (v : α) {xs : List α} {i : Nat} (h : i < xs.length) :
    (xs.set i v).take (i + 1) = xs.take i ++ [v] := by
  rw [List.set_eq_take_append_cons_drop, if_pos h, List.take_append]
  simp [Nat.min_eq_left h.le]

/-- The first entries after a run of stores at their end. -/
theorem take_fill {α : Type} (v : α) :
    ∀ {xs : List α} {i n : Nat}, i + n ≤ xs.length →
      (fill v xs i n).take (i + n) = xs.take i ++ List.replicate n v
  | [], i, n, h => by
    obtain ⟨rfl, rfl⟩ : i = 0 ∧ n = 0 := by simpa using h
    rfl
  | x :: xs, i + 1, n, h => by
    rw [Nat.succ_add_eq_add_succ] at h
    rw [fill, Nat.add_right_comm, List.take_succ_cons, take_fill v (Nat.le_of_succ_le_succ h)]
    rfl
  | x :: xs, 0, 0, _ => rfl
  | x :: xs, 0, n + 1, h => by
    have hn := take_fill v (xs := xs) (i := 0) (n := n) (by simpa using h)
    rw [Nat.zero_add] at hn ⊢
    rw [fill, List.take_succ_cons, hn]
    rfl

end Sys2Proof.Machine
end

section
/-! SUPPORT. A step of two calls with the same input. -/

namespace Sys2Proof.Machine

open State.SameCall (ite)
open State.LiveAt (of_state)

/-- The previous bit length is one of those that agree. -/
theorem State.SameCall.prevLen {s t : State} (h : s.SameCall t) (hst : s.state = .dyLens)
    (h0 : s.idx ≠ 0#9) : t.prevLen = s.prevLen := by
  obtain ⟨-, -, hidx, hlens⟩ := h.live_of hst
  have hpos : s.idx.toNat ≠ 0 := fun e => h0 (BitVec.eq_of_toNat_eq e)
  have hget : ∀ xs : List (BitVec 4),
      xs.getD (s.idx.toNat - 1) 0#4 = (xs.take s.idx.toNat).getD (s.idx.toNat - 1) 0#4 := fun xs => by
    rw [List.getD_eq_getElem?_getD, List.getD_eq_getElem?_getD, List.getElem?_take_of_lt (by omega)]
  rw [State.prevLen, State.prevLen, hidx, hget, hlens, ← hget]

section
variable {s t : State} (h : s.SameCall t) (hs : s.Sound) (ht : t.Sound)
include h hs ht

/-- A repeat of the same length, the same number of times. -/
theorem State.SameCall.repeatLen (hst : s.state = .dyLens) {v v' : BitVec 4} (hv : v' = v)
    (n : BitVec 8) : (s.repeatLen v n).SameCall (t.repeatLen v' n) := by
  obtain ⟨⟨hb, hlit, hdist, htot⟩, hclt, hidx, hlens⟩ := h.live_of hst
  have htlt := s.total.isLt
  have hmax := (hs.stage_of hst).1.2
  have hl := s.hlit.isLt
  have hd := s.hdist.isLt
  refine ite (by simp only [htot, hidx]) (fun _ => ?_) fun hle => ?_
  · exact { h with err := rfl, state := rfl, cursor := nofun, live := trivial }
  · dsimp only at hle
    have hmod : (BitVec.ofNat 9 (s.idx.toNat + n.toNat)).toNat = s.idx.toNat + n.toNat := by
      rw [BitVec.toNat_ofNat, Nat.mod_eq_of_lt (by omega)]
    have hlive : State.LiveAt
        { s with
          rep := n, lens := fill v s.lens s.idx.toNat n.toNat
          idx := BitVec.ofNat 9 (s.idx.toNat + n.toNat) }
        { t with
          rep := n, lens := fill v' t.lens t.idx.toNat n.toNat
          idx := BitVec.ofNat 9 (t.idx.toNat + n.toNat) } .dyLens := by
      refine ⟨⟨hb, hlit, hdist, htot⟩, hclt, by simp only [hidx], ?_⟩
      simp only [hmod, hidx, hv]
      rw [take_fill v (by rw [ht.lens]; omega), take_fill v (by rw [hs.lens]; omega), hlens]
    exact { h with live := hst.symm ▸ hlive }

/-- The same element does the same to both calls. -/
theorem exec_sameNext {i : Instr} (hr : Reads s i) : SameNext (exec i s) (exec i t) := by
  have hlen := h.inLen
  cases hr with
  | @zhdr b0 b1 hst hp =>
    refine .next (ite (by rw [hlen]) (fun _ => h.raise _) fun _ => ?_)
    exact { h with
      part := rfl, cursor := fun _ => ⟨rfl, rfl, hlen⟩, live := hst.symm ▸ trivial }
  | dictid hst hp =>
    obtain ⟨hb, hk, hl⟩ := h.cursor (by simp [State.cursorSet, hst, hp])
    refine .next (ite (by rw [hb, hl]) (fun _ => h.raise _) fun _ => ?_)
    exact { h with
      part := rfl, cursor := fun _ => ⟨congrArg (· + 4) hb, hk, hl⟩, live := hst.symm ▸ trivial }
  | adler hst hp =>
    obtain ⟨hb, hk, hl⟩ := h.cursor (by simp [State.cursorSet, hst, hp])
    refine .next (ite (by rw [hb, hlen]) (fun _ => h.raise _) fun _ => ?_)
    exact { h with
      part := rfl, state := rfl
      cursor := fun _ => ⟨hb, rfl, congrArg (· - 4) hlen⟩, live := trivial }
  | blockStored hst =>
    have hc := h.cursor_at hst rfl
    exact .next { h with
      state := rfl, part := rfl, cursor := fun _ => hc, live := ⟨rfl, nofun⟩ }
  | blockFixed hst =>
    have hc := h.cursor_at hst rfl
    exact .next { h with state := rfl, part := rfl, cursor := fun _ => hc, live := rfl }
  | blockDynamic hst =>
    have hc := h.cursor_at hst rfl
    exact .next { h with
      state := rfl, part := rfl, cursor := fun _ => hc
      live := ⟨rfl, fun hne => absurd rfl hne, nofun⟩ }
  | blockReserved =>
    exact .next { h with
      err := rfl, state := rfl, part := rfl, cursor := nofun, live := trivial }
  | pad hst =>
    have hw : s.state.windowSet = true := by rw [hst]; rfl
    have h' := h.withReader hw (h.reader hs hw).align
    exact .next { h' with
      part := rfl, cursor := fun _ => h'.cursor_at hst rfl
      live := of_state (st := .stHdr) ⟨(h.live_of hst).1, nofun⟩ hst }
  | len16 hst =>
    have hc := h.cursor_at hst rfl
    exact .next { h with
      part := rfl, cursor := fun _ => hc
      live := of_state (st := .stHdr) ⟨(h.live_of hst).1, fun _ => rfl⟩ hst }
  | nlen16 hst hp =>
    have hc := h.cursor_at hst rfl
    obtain ⟨hb, hlen⟩ := h.live_of hst
    refine .next (ite (by simp only [hlen hp]) (fun _ => ?_) fun _ => ?_)
    · exact { h with err := rfl, state := rfl, cursor := nofun, live := trivial }
    · exact { h with
        state := rfl, part := rfl, cursor := fun _ => hc, live := ⟨hb, hlen hp⟩ }
  | byte hst =>
    obtain ⟨hb, hrem⟩ := h.live_of hst
    exact .next (h.outAppend hs ht fun _ _ h' => { h' with
      live := of_state (st := .stCopy) ⟨hb, congrArg (· - 1#16) hrem⟩ hst })
  | hlit hst =>
    have hc := h.cursor_at hst rfl
    exact .next { h with
      part := rfl, cursor := fun _ => hc
      live := of_state (st := .dyCounts) ⟨(h.live_of hst).1, fun _ => rfl, nofun⟩ hst }
  | hdist hst hp =>
    have hc := h.cursor_at hst rfl
    obtain ⟨hb, hlit, -⟩ := h.live_of hst
    exact .next { h with
      part := rfl, cursor := fun _ => hc
      live := of_state (st := .dyCounts)
        ⟨hb, fun _ => hlit (by rw [hp]; exact nofun), fun _ => rfl⟩ hst }
  | hclen hst hp =>
    have hc := h.cursor_at hst rfl
    obtain ⟨hb, hlit, hdist⟩ := h.live_of hst
    have hlit := hlit (by rw [hp]; exact nofun)
    exact .next { h with
      state := rfl, part := rfl, cursor := fun _ => hc
      live := ⟨⟨hb, hlit, hdist hp, congrArg₂ totalOf hlit (hdist hp)⟩, rfl⟩ }
  | cllen hst =>
    have hc := h.cursor_at hst rfl
    exact .next { h with state := rfl, cursor := fun _ => hc, live := ⟨(h.live_of hst).1, rfl⟩ }
  | @cl n hst hi =>
    obtain ⟨hcounts, hclt, hidx, hlens⟩ := h.live_of hst
    have htot := (hs.stage_of hst).1.2
    have htlt := s.total.isLt
    have hl := s.hlit.isLt
    have hd := s.hdist.isLt
    have hsucc : (s.idx + 1#9).toNat = s.idx.toNat + 1 := by
      rw [BitVec.toNat_add, BitVec.toNat_ofNat]; omega
    refine .next { h with
      live := of_state (st := .dyLens) ⟨hcounts, hclt, congrArg (· + 1#9) hidx, ?_⟩ hst }
    simp only [hidx, hsucc]
    rw [take_set_succ n (by rw [ht.lens]; omega), take_set_succ n (by rw [hs.lens]; omega), hlens]
  | cl16 hst =>
    refine .next (ite (by rw [(h.live_of hst).2.2.1]) (fun _ => h.raise _) fun h0 => ?_)
    exact h.repeatLen hs ht hst (h.prevLen hst h0) _
  | cl17 hst => exact .next (h.repeatLen hs ht hst rfl _)
  | cl18 hst => exact .next (h.repeatLen hs ht hst rfl _)
  | lit ha =>
    have hst := hs.atSymbol ha
    refine .next (State.SameCall.outAppend { h with live := ?_ } ?_ ?_ fun _ _ h' => h')
    · exact of_state (st := .sym) (h.live_of hst) hst
    · exact { hs with stage := State.StageAt.of_state (st := .sym) (hs.stage_of hst) hst }
    · have hst' := h.state.trans hst
      exact { ht with stage := State.StageAt.of_state (st := .sym) (ht.stage_of hst') hst' }
  | eob ha =>
    have hst := hs.atSymbol ha
    have hc := h.cursor_at hst rfl
    exact .next { h with state := rfl, cursor := fun _ => hc, live := (h.live_of hst).1 }
  | llsym286 =>
    exact .next { h with err := rfl, state := rfl, cursor := nofun, live := trivial }
  | llsym287 =>
    exact .next { h with err := rfl, state := rfl, cursor := nofun, live := trivial }
  | dsym30 =>
    exact .next { h with err := rfl, state := rfl, cursor := nofun, live := trivial }
  | dsym31 =>
    exact .next { h with err := rfl, state := rfl, cursor := nofun, live := trivial }
  | length hst hp =>
    have hc := h.cursor_at hst rfl
    rw [exec_of_lengthParts hp, exec_of_lengthParts hp]
    exact .next { h with state := rfl, cursor := fun _ => hc, live := ⟨(h.live_of hst).1, rfl⟩ }
  | dist hst hp =>
    have hc := h.cursor_at hst rfl
    obtain ⟨htrees, hlength, -⟩ := h.live_of hst
    rw [exec_of_distParts hp, exec_of_distParts hp]
    refine .next (ite (by simp only [h.outLen]) (fun _ => ?_) fun _ => ?_)
    · exact { h with err := rfl, state := rfl, cursor := nofun, live := trivial }
    · exact { h with state := rfl, cursor := fun _ => hc, live := ⟨htrees, rfl, hlength⟩ }

end

end Sys2Proof.Machine
end

section
/-! SUPPORT. What a call gives depends on its input only: the fetches of two calls with the same input
agree, so their steps do, and so do their results. -/

namespace Sys2Proof.Machine

/-- The same fetch in both calls, none of them a stop. -/
inductive Fetch.Agree : Fetch → Fetch → Prop
  | elem {i : Instr} {s t : State} (h : s.SameCall t) : Agree (.elem i s) (.elem i t)
  | row {s t : State} (h : s.SameCall t) : Agree (.row (.next s)) (.row (.next t))
  | raised {k : ErrKind} {s t : State} (h : s.SameCall t) : Agree (.raised k s) (.raised k t)

/-- The window is readable where it is set. -/
theorem State.Sound.inReadable {s : State} (h : s.Sound) (hw : s.state.windowSet = true) :
    s.inReadable = true := by
  obtain ⟨⟨-, hcap⟩, hlim⟩ := h.stage.inWindow hw
  simp [State.inReadable, hlim, hcap]

/-- Two trees built alike. -/
theorem State.SameCall.setTrees {s t : State} (h : s.SameCall t) (hc : s.SameCursor t)
    (hb : t.bfinal = s.bfinal) (b c : Build) (l d : Tree) :
    State.SameCall { (s.withScratch b) with llt := l, dt := d, state := .sym }
      { (t.withScratch c) with llt := l, dt := d, state := .sym } :=
  { h with state := rfl, cursor := fun _ => hc, live := ⟨hb, rfl, rfl⟩ }

section
variable {s t : State} (h : s.SameCall t) (hs : s.Sound) (ht : t.Sound)
include h

theorem Fetch.Agree.ofRead {x y : Read Instr} (hxy : x.Agree y)
    (hw : s.state.windowSet = true) : Fetch.Agree (.ofRead s x) (.ofRead t y) := by
  cases hxy with
  | ok hr => exact .elem (h.withReader hw hr)
  | raise hr => exact .raised (h.withReader hw hr)

include hs

theorem fetchEnvelope_agree (hst : s.state = .zhdr) : (fetchEnvelope s).Agree (fetchEnvelope t) := by
  have hcap : ¬s.par.inCap < s.inLen := Nat.not_lt_of_le (hs.stage_of hst).1.2
  unfold fetchEnvelope
  rw [h.part, h.par, h.inLen]
  cases s.part with
  | first =>
    dsimp only
    rw [if_neg hcap, if_neg hcap]
    by_cases h2 : s.inLen < 2
    · rw [if_pos h2, if_pos h2]; exact .raised h
    · rw [if_neg h2, if_neg h2, decodeEnvelope, decodeEnvelope, h.input 0 (by omega),
        h.input 1 (by omega)]
      exact .elem h
  | second => exact .elem h
  | third => exact .elem h

/-- DY_TREES builds from the lengths both calls have written (42_block_state_machine.md R124). -/
theorem rowTrees_sameCall (hst : s.state = .dyTrees) : (rowTrees s).SameCall (rowTrees t) := by
  obtain ⟨⟨hb, hlit, hdist, -⟩, hlens⟩ := h.live_of hst
  have htot := (hs.stage_of hst).2
  have hll : t.llLens = s.llLens := by
    have := congrArg (List.take (s.hlit.toNat + 257)) hlens
    rw [List.take_take, List.take_take, Nat.min_eq_left (by omega)] at this
    rw [State.llLens, State.llLens, hlit, this]
  have hd : t.dLens = s.dLens := by
    have := congrArg (List.drop (s.hlit.toNat + 257)) hlens
    rw [List.drop_take, List.drop_take,
      show s.total.toNat - (s.hlit.toNat + 257) = s.hdist.toNat + 1 by omega] at this
    rw [State.dLens, State.dLens, hlit, hdist, this]
  unfold rowTrees
  rw [hll, hd]
  exact h.setTrees (h.cursor_at hst rfl) hb _ _ _ _

include ht

theorem guardIn_agree (hw : s.state.windowSet = true) {f g : Fetch} (hfg : f.Agree g) :
    (guardIn s f).Agree (guardIn t g) := by
  have hw' : t.state.windowSet = true := h.state ▸ hw
  rw [guardIn, guardIn, if_pos (hs.inReadable hw), if_pos (ht.inReadable hw')]
  exact hfg

theorem fetchElem_agree {st : BlockState} (hst : s.state = st) (hw : st.windowSet = true)
    {e e' : Expect} (he : e' = e) : (fetchElem e s).Agree (fetchElem e' t) := by
  subst hst
  rw [he]
  exact guardIn_agree h hs ht hw (.ofRead h ((h.reader hs hw).decode e) hw)

theorem fetchSymbol_agree (hst : s.state = .sym) : (fetchSymbol s).Agree (fetchSymbol t) := by
  have hw : s.state.windowSet = true := by rw [hst]; rfl
  refine guardIn_agree h hs ht hw ?_
  have htrees := h.live_of hst
  have hd := (h.reader hs hw).decodeSymbol s.llt
  rw [htrees.2.1]
  generalize s.llt.decodeSymbol s.reader = x at hd
  generalize s.llt.decodeSymbol t.reader = y at hd
  cases hd with
  | raise hr => exact .raised (h.withReader hw hr)
  | ok hr =>
    have h' := h.withReader hw hr
    dsimp only
    split
    · exact .row { h' with
        state := rfl, cursor := fun _ => h'.cursor_of hw, live := ⟨htrees, rfl⟩ }
    · exact .ofRead h (hr.llElement _) hw

theorem fetchDistSymbol_agree (hst : s.state = .distSym) :
    (fetchDistSymbol s).Agree (fetchDistSymbol t) := by
  have hw : s.state.windowSet = true := by rw [hst]; rfl
  refine guardIn_agree h hs ht hw ?_
  obtain ⟨htrees, hlength⟩ := h.live_of hst
  have hd := (h.reader hs hw).decodeSymbol s.dt
  rw [htrees.2.2]
  generalize s.dt.decodeSymbol s.reader = x at hd
  generalize s.dt.decodeSymbol t.reader = y at hd
  cases hd with
  | raise hr => exact .raised (h.withReader hw hr)
  | ok hr =>
    have h' := h.withReader hw hr
    dsimp only
    split
    · exact .row { h' with
        state := rfl, cursor := fun _ => h'.cursor_of hw, live := ⟨htrees, hlength, rfl⟩ }
    · exact .ofRead h (hr.dElement _) hw

/-- COPY reads a byte of the output both calls have written (43_lz77_symbols.md R135). -/
theorem rowCopy_agree (hst : s.state = .copy) :
    Fetch.Agree (.row (rowCopy s)) (.row (rowCopy t)) := by
  have hc := h.cursor_at hst rfl
  obtain ⟨htrees, hdist, hrem⟩ := h.live_of hst
  obtain ⟨-, ⟨hpos, hle⟩, -⟩ := hs.stage_of hst
  unfold rowCopy
  by_cases h0 : s.copyRem = 0#9
  · rw [if_pos h0, if_pos (hrem.trans h0)]
    exact .row { h with state := rfl, cursor := fun _ => hc, live := htrees }
  · have hd : ¬(s.dist.toNat = 0 ∨ s.outLen < s.dist.toNat) := by omega
    rw [if_neg h0, if_neg fun e => h0 (hrem.symm.trans e), hdist, h.outLen, if_neg hd, if_neg hd,
      h.output _ (by omega)]
    exact .row (h.outAppend hs ht fun _ _ h' => { h' with
      live := .of_state (st := .copy) ⟨htrees, hdist, congrArg (· - 1#9) hrem⟩ hst })

/-- The next step of the block is the same in both calls. -/
theorem fetchBlock_agree : (fetchBlock s).Agree (fetchBlock t) := by
  have hst' := h.state
  unfold fetchBlock
  rw [hst']
  cases hst : s.state with
  | idle | done | error => exact .row h
  | zhdr => exact fetchEnvelope_agree h hs hst
  | blkHdr =>
    dsimp only
    unfold fetchHeader
    rw [h.blocks, h.par]
    split
    · exact .raised h
    · exact fetchElem_agree h hs ht hst rfl rfl
  | stHdr =>
    dsimp only
    unfold fetchStoredHeader
    rw [h.part]
    split <;> exact fetchElem_agree h hs ht hst rfl rfl
  | stCopy =>
    have hc := h.cursor_at hst rfl
    obtain ⟨hb, hrem⟩ := h.live_of hst
    dsimp only
    rw [hrem]
    split
    · exact .row { h with state := rfl, cursor := fun _ => hc, live := hb }
    · exact fetchElem_agree h hs ht hst rfl rfl
  | fxSetup => exact .row (h.setTrees (h.cursor_at hst rfl) (h.live_of hst) _ _ _ _)
  | dyCounts =>
    dsimp only
    unfold fetchCounts
    rw [h.part]
    split <;> exact fetchElem_agree h hs ht hst rfl rfl
  | dyClen => exact fetchElem_agree h hs ht hst rfl (by rw [(h.live_of hst).2])
  | dyCltree =>
    have hc := h.cursor_at hst rfl
    obtain ⟨hcounts, hcl⟩ := h.live_of hst
    dsimp only
    unfold rowClTree
    rw [hcl]
    exact .row { h with state := rfl, cursor := fun _ => hc, live := ⟨hcounts, rfl, rfl, rfl⟩ }
  | dyLens =>
    have hc := h.cursor_at hst rfl
    obtain ⟨hcounts, hclt, hidx, hlens⟩ := h.live_of hst
    have hle := (hs.stage_of hst).2
    dsimp only
    rw [hidx, hclt, hcounts.2.2.2]
    by_cases hi : s.idx.toNat < s.total.toNat
    · rw [if_pos hi, if_pos hi]
      exact fetchElem_agree h hs ht hst rfl rfl
    · rw [if_neg hi, if_neg hi]
      have heq : s.idx.toNat = s.total.toNat := by omega
      exact .row { h with
        state := rfl, cursor := fun _ => hc, live := ⟨hcounts, heq ▸ hlens⟩ }
  | dyTrees => exact .row (rowTrees_sameCall h hs hst)
  | sym => exact fetchSymbol_agree h hs ht hst
  | lenX => exact fetchElem_agree h hs ht hst rfl (by rw [(h.live_of hst).2])
  | distSym => exact fetchDistSymbol_agree h hs ht hst
  | distX => exact fetchElem_agree h hs ht hst rfl (by rw [(h.live_of hst).2.2])
  | copy => exact rowCopy_agree h hs ht hst
  | blkEnd =>
    have hc := h.cursor_at hst rfl
    have hb := h.live_of hst
    dsimp only
    unfold rowBlockEnd
    rw [hb, h.blocks]
    refine .row { h with blocks := rfl, state := rfl, cursor := fun _ => hc, live := ?_ }
    cases s.bfinal <;> trivial

/-- So the step is the same in both calls, and neither stops. -/
theorem fetchBlock_sameNext : SameNext (fetchBlock s).outcome (fetchBlock t).outcome := by
  have hfg := fetchBlock_agree h hs ht
  generalize hf : fetchBlock s = f at hfg
  generalize hg : fetchBlock t = g at hfg
  cases hfg with
  | elem h' =>
    have hr := fetchBlock_elem_readOn hf
    refine exec_sameNext h' (hs.of_readOn hr) (ht.of_readOn (fetchBlock_elem_readOn hg)) ?_
    obtain ⟨r, -, rfl⟩ := hr.moved
    exact (fetchBlock_reads hf).withReader r
  | row h' => exact .next h'
  | raised h' => exact .next (h'.raise _)

omit hs ht in
/-- Calls that agree have the same result, if any. -/
theorem State.SameCall.result : t.result = s.result := by
  unfold State.result
  rw [h.state, h.outLen, h.err]
  have : (List.range s.outLen).map t.outMem.read = (List.range s.outLen).map s.outMem.read :=
    List.map_congr_left fun a ha => h.output a (List.mem_range.1 ha)
  rw [this]

end

theorem SameNext.exists {o o' : Out} (h : SameNext o o') :
    ∃ s t, o = .next s ∧ o' = .next t ∧ s.SameCall t := by
  cases h with
  | next h => exact ⟨_, _, rfl, rfl, h⟩

/-- A run of one step more. -/
theorem run_succ {s u : State} (h : step s = .next u) (k : Nat) :
    core.run (k + 1) s = core.run k u := by
  simp only [Host.Core.run, show core.step s = .next u from h]

/-- Two calls that agree go on agreeing, step by step. -/
theorem run_sameCall : ∀ (k : Nat) {s t : State}, s.SameCall t → s.Sound → t.Sound →
    s.host = [] → t.host = [] →
    ∃ s' t', core.run k s = .next s' ∧ core.run k t = .next t' ∧ s'.SameCall t'
  | 0, s, t, h, _, _, _, _ => ⟨s, t, rfl, rfl, h⟩
  | k + 1, s, t, h, hs, ht, hsh, hth => by
    obtain ⟨u, v, hu, hv, h'⟩ := (fetchBlock_sameNext h hs ht).exists
    obtain ⟨s', t', hs', ht', hst⟩ := run_sameCall k h' (fetchBlock_sound hs hu)
      (fetchBlock_sound ht hv) ((fetchBlock_frame hu).host.trans hsh)
      ((fetchBlock_frame hv).host.trans hth)
    exact ⟨s', t', (run_succ ((step_of_host_nil hsh).trans hu) k).trans hs',
      (run_succ ((step_of_host_nil hth).trans hv) k).trans ht', hst⟩

/-- The start of a call, on a sound state that holds an input within IN_CAP, is START's own. -/
theorem begin_eq_start {s : State} (hb : s.busy = false) (hcap : s.inLen ≤ s.par.inCap) :
    exec (.start s.mode) s = .next s.begin :=
  (if_neg (ne_true_of_eq_false hb)).trans (if_neg (Nat.not_lt_of_le hcap))

/-- Calls begun on the same MODE, IN_LEN, input bytes and parameters agree. -/
theorem begin_sameCall {s t : State} (hpar : t.par = s.par) (hmode : t.mode = s.mode)
    (hlen : t.inLen = s.inLen) (hin : ∀ a < s.inLen, t.inMem.read a = s.inMem.read a) :
    s.begin.SameCall t.begin := by
  unfold State.begin
  rw [hmode]
  cases s.mode with
  | raw => exact ⟨hpar, hlen, rfl, rfl, rfl, rfl, rfl, hin, nofun, fun _ => ⟨rfl, rfl, hlen⟩, trivial⟩
  | zlib => exact ⟨hpar, hlen, rfl, rfl, rfl, rfl, rfl, hin, nofun, nofun, trivial⟩

theorem begin_host (s : State) : s.begin.host = s.host := by
  unfold State.begin
  split <;> rfl

/-- STATUS is a function of the block's state. -/
theorem State.run_congr {s t : State} (h : t.state = s.state) : t.run = s.run := by
  unfold State.run
  rw [h]

/-- Settles O60: calls begun alike agree at every step, and so on STATUS and the result. -/
theorem callDependsOnInputOnly : Obligations.CallDependsOnInputOnly := by
  intro s t hs ht hbs hbt hhs hht hpar hmode hlen hcap hin k
  have hcap' : t.inLen ≤ t.par.inCap := hpar ▸ hlen ▸ hcap
  obtain ⟨s', t', hs', ht', h⟩ := run_sameCall k
    (begin_sameCall hpar.symm hmode.symm hlen.symm fun a ha => (hin a ha).symm)
    (hs.sound.start (begin_eq_start hbs hcap)) (ht.sound.start (begin_eq_start hbt hcap'))
    ((begin_host s).trans hhs) ((begin_host t).trans hht)
  exact ⟨s', t', hs', ht', (State.run_congr h.state).symm, h.result.symm⟩

end Sys2Proof.Machine
end

section
/-! SUPPORT. Where the host's port stops the model. -/

namespace Sys2Proof.Machine

/-- Settles O48: the port tests BUSY first for a write, and the address after it. -/
theorem hostAccessesStopped : Obligations.HostAccessesStopped := by
  intro s ops a n v
  refine ⟨fun hb h => ?_, fun hb h ha => ?_, fun hb h ha => ?_, fun h ha => ?_⟩
  · obtain h | h | h := h <;> exact (step_of_host_cons h).trans (if_pos hb)
  · exact (step_of_host_cons h).trans ((if_neg (ne_true_of_eq_false hb)).trans (if_pos ha))
  · exact (step_of_host_cons h).trans ((if_neg (ne_true_of_eq_false hb)).trans (if_pos ha))
  · exact (step_of_host_cons h).trans (if_pos ha)

end Sys2Proof.Machine
end

section
/-! SUPPORT. The frame of an instruction, by what it writes: the block's working registers, the
output, the cursor and the window, or, for RESET and START, the registers of a call. -/

namespace Sys2Proof.Machine

/-- What an element of the stream leaves as it was, beside what every instruction does: LIT and BYTE
alone append, the envelope alone sets the window, and it and PAD move the cursor. -/
structure State.ElementFrame (i : Instr) (s t : State) : Prop where
  mode : t.mode = s.mode
  blocks : t.blocks = s.blocks
  outLen : i.appends = false → t.outLen = s.outLen
  limit : (∀ b0 b1, i ≠ .zhdr b0 b1) → i ≠ .adler → t.limit = s.limit
  pos : (∀ b0 b1, i ≠ .zhdr b0 b1) → i ≠ .adler → i ≠ .dictid → i ≠ .pad → t.pos = s.pos

/-- What an instruction leaves as it was. -/
structure State.InstrFrame (i : Instr) (s t : State) : Prop where
  par : t.par = s.par
  inMem : t.inMem = s.inMem
  host : t.host = s.host
  hostData : t.hostData = s.hostData
  free : t.free = s.free
  clt : t.clt = s.clt
  llt : t.llt = s.llt
  dt : t.dt = s.dt
  count : t.count = s.count
  nextCode : t.nextCode = s.nextCode
  out : ∀ a, i.appends = false ∨ a ≠ s.outLen → t.outMem.read a = s.outMem.read a
  inLen : i ≠ .reset → t.inLen = s.inLen
  element : i ≠ .reset → (∀ m, i ≠ .start m) → s.ElementFrame i t

namespace State.InstrFrame

variable {i : Instr} {s t : State}

/-- A state that differs in the block's working registers alone. -/
theorem of_work
    (h : t =
      { t with
        par := s.par, mode := s.mode, inLen := s.inLen, byteCursor := s.byteCursor,
        bitCursor := s.bitCursor, limit := s.limit, blocks := s.blocks, outLen := s.outLen,
        clt := s.clt, llt := s.llt, dt := s.dt, count := s.count, nextCode := s.nextCode,
        inMem := s.inMem, outMem := s.outMem, host := s.host, hostData := s.hostData,
        free := s.free }) :
    s.InstrFrame i t := by
  rw [h]
  exact ⟨rfl, rfl, rfl, rfl, rfl, rfl, rfl, rfl, rfl, rfl, fun _ _ => rfl, fun _ => rfl,
    fun _ _ => ⟨rfl, rfl, fun _ => rfl, fun _ _ => rfl, fun _ _ _ _ => rfl⟩⟩

theorem refl (i : Instr) (s : State) : s.InstrFrame i s := of_work rfl

theorem raise (h : s.InstrFrame i t) (k : ErrKind) : s.InstrFrame i (t.raise k) :=
  { h with element := fun hr hs => { h.element hr hs with } }

/-- An element that appends, with working registers written beside, keeps every byte of OUT but the
one at `out_len`. -/
theorem appended {v : Byte} (hwf : s.outMem.wf = true) (ha : i.appends = true)
    (h : s.InstrFrame i { t with outMem := s.outMem, outLen := s.outLen })
    (hout : t.outMem = s.outMem.write s.outLen v) : s.InstrFrame i t :=
  { h with
    out := fun a hne => by
      rw [hout, Mem.read_write_other v hwf (hne.resolve_left (by simp [ha]))]
    element := fun hr hs =>
      { h.element hr hs with outLen := fun hn => absurd ha (ne_true_of_eq_false hn) } }

/-- An instruction that sets the registers of a call, as START does. -/
theorem of_start {m : Mode}
    (h : t =
      { s with
        mode := m, err := t.err, outLen := t.outLen, blocks := t.blocks, limit := t.limit,
        byteCursor := t.byteCursor, bitCursor := t.bitCursor, state := t.state, part := t.part }) :
    s.InstrFrame (.start m) t := by
  rw [h]
  exact { refl (.start m) s with element := fun _ hm => absurd rfl (hm m) }

/-- RESET leaves the memories, the trees, their scratch and the model's own fields. -/
theorem of_reset (s : State) : s.InstrFrame .reset s.toReset :=
  { refl .reset s with
    inLen := fun hr => absurd rfl hr
    element := fun hr => absurd rfl hr }

/-- An element of the envelope, or PAD: beside working registers it may set the cursor and the
window, as far as `hl` and `hp` leave it open. -/
theorem of_cursor (h : s.InstrFrame i { t with
      byteCursor := s.byteCursor, bitCursor := s.bitCursor, limit := s.limit })
    (hl : (∀ b0 b1, i ≠ .zhdr b0 b1) → i ≠ .adler → t.limit = s.limit)
    (hp : (∀ b0 b1, i ≠ .zhdr b0 b1) → i ≠ .adler → i ≠ .dictid → i ≠ .pad → t.pos = s.pos) :
    s.InstrFrame i t :=
  { h with element := fun hr hs => { h.element hr hs with limit := hl, pos := hp } }

end State.InstrFrame

open State.InstrFrame (of_work appended of_start of_reset of_cursor)

variable {s t : State}

/-- A repeat of bit lengths is work of the block alone. -/
theorem State.repeatLen_instrFrame (i : Instr) (s : State) (v : BitVec 4) (n : BitVec 8) :
    s.InstrFrame i (s.repeatLen v n) := by
  obtain ⟨-, e⟩ | ⟨-, e⟩ := s.repeatLen_cases v n <;> rw [e]
  · exact (of_work rfl).raise _
  · exact of_work rfl

/-- A distance is work of the block alone. -/
theorem State.takeDist_instrFrame (i : Instr) (s : State) (d y : Nat) :
    s.InstrFrame i (s.takeDist d y) := by
  obtain ⟨-, e⟩ | ⟨-, e⟩ := s.takeDist_cases d y <;> rw [e]
  · exact (of_work rfl).raise _
  · exact of_work rfl

/-- START writes the registers of the call (44_stream_and_wrapper.md R147), or MODE alone. -/
theorem execStart_instrFrame {m : Mode} (h : exec (.start m) s = .next t) :
    s.InstrFrame (.start m) t := by
  by_cases hb : s.busy = true
  · cases (if_pos hb).symm.trans h
    exact of_start rfl
  by_cases hc : s.par.inCap < s.inLen
  · cases ((if_neg hb).trans (if_pos hc)).symm.trans h
  cases ((if_neg hb).trans (if_neg hc)).symm.trans h
  cases m <;> exact of_start rfl

/-- Every instruction keeps its frame: the LENGTH elements and the DIST elements each by their one
meaning, the others one by one. -/
theorem exec_instrFrame {i : Instr} (hwf : s.outMem.wf = true) (h : exec i s = .next t) :
    s.InstrFrame i t := by
  cases hl : i.lengthParts with
  | some p => cases (exec_of_lengthParts hl s).symm.trans h; exact of_work rfl
  | none =>
  cases hd : i.distParts with
  | some p => cases (exec_of_distParts hd s).symm.trans h; exact s.takeDist_instrFrame _ _ _
  | none =>
  cases i with
  | blockStored | blockFixed | blockDynamic | len16 | hlit | hdist | hclen | cllen | cl | eob =>
    cases h; exact of_work rfl
  | blockReserved | llsym286 | llsym287 | dsym30 | dsym31 => cases h; exact (of_work rfl).raise _
  | nlen16 =>
    cases h
    dsimp only
    split
    · exact (of_work rfl).raise _
    · exact of_work rfl
  | cl16 =>
    cases h
    split
    · exact (of_work rfl).raise _
    · exact s.repeatLen_instrFrame _ _ _
  | cl17 | cl18 => cases h; exact s.repeatLen_instrFrame _ _ _
  | byte x =>
    cases h
    obtain ⟨-, e⟩ | ⟨-, e⟩ :=
      s.outAppend_cases x fun u => { u with stRem := u.stRem - 1#16 } <;> rw [e]
    · exact (of_work rfl).raise _
    · exact appended hwf rfl (of_work rfl) rfl
  | lit x =>
    cases h
    obtain ⟨-, e⟩ | ⟨-, e⟩ :=
      ({ s with sym := x.setWidth 9 } : State).outAppend_cases x id <;> rw [e]
    · exact (of_work rfl).raise _
    · exact appended hwf rfl (of_work rfl) rfl
  | pad =>
    cases h
    exact of_cursor (of_work rfl) (fun _ _ => rfl) fun _ _ _ hne => absurd rfl hne
  | zhdr b0 b1 =>
    cases h
    split
    · exact (of_work rfl).raise _
    · exact of_cursor (of_work rfl) (fun hne => absurd rfl (hne b0 b1))
        fun hne => absurd rfl (hne b0 b1)
  | dictid =>
    cases h
    split
    · exact (of_work rfl).raise _
    · exact of_cursor (of_work rfl) (fun _ _ => rfl) fun _ _ hne => absurd rfl hne
  | adler =>
    cases h
    split
    · exact (of_work rfl).raise _
    · exact of_cursor (of_work rfl) (fun _ hne => absurd rfl hne) fun _ hne => absurd rfl hne
  | start m => exact execStart_instrFrame h
  | reset => cases h; exact of_reset s
  | _ => simp [Instr.lengthParts, Instr.distParts] at hl hd

/-- Settles O53: each clause is a field of the instruction's frame. -/
theorem instructionFrame : Obligations.InstructionFrame := by
  intro i s t h hwf
  have f := exec_instrFrame hwf h
  refine ⟨f.par, f.inMem, f.host, f.hostData, f.free, f.clt, f.llt, f.dt, f.count, f.nextCode,
    f.out, f.inLen, fun hr hs => ?_⟩
  have e := f.element hr hs
  exact ⟨e.mode, e.blocks, e.outLen, e.limit, e.pos⟩

end Sys2Proof.Machine
end

section
/-! SUPPORT. The zlib window, element by element of the envelope (44_stream_and_wrapper.md R150). -/

namespace Sys2Proof.Machine

theorem run_one {s t : State} (h : step s = .next t) : core.run 1 s = .next t := run_succ h 0

/-- The call inside its envelope: what lies below `c` is past, and `p` says what comes next. -/
def State.inEnvelope (s : State) (c : Nat) (p : Part) : State :=
  { s with byteCursor := c, bitCursor := 0#3, limit := s.inLen, part := p }

/-- The call with its stream in the window `[c, IN_LEN - 4)`. -/
def State.inStream (s : State) (c : Nat) : State :=
  { s with
    byteCursor := c, bitCursor := 0#3, limit := s.inLen - 4, state := .blkHdr, part := .first }

section
variable {s : State} (hst : s.state = .zhdr) (hh : s.host = [])
include hst hh

/-- In ZHDR a step is the envelope's next element. -/
theorem step_envelope : step s = (fetchEnvelope s).outcome := by
  rw [step_of_host_nil hh, fetchBlock, hst]

theorem step_zhdr_short (hp : s.part = .first) (hcap : s.inLen ≤ s.par.inCap)
    (h : s.inLen < 2) : step s = .next (s.raise .inputUnderrun) := by
  rw [step_envelope hst hh, fetchEnvelope, hp]
  dsimp only
  rw [if_neg (Nat.not_lt_of_le hcap), if_pos h, Fetch.outcome]

theorem step_zhdr (hp : s.part = .first) (hcap : s.inLen ≤ s.par.inCap) (h : 2 ≤ s.inLen) :
    step s =
      .next (s.inEnvelope 2 (if (s.inMem.read 1).getLsbD 5 then .second else .third)) := by
  rw [step_envelope hst hh, fetchEnvelope, hp]
  dsimp only
  rw [if_neg (Nat.not_lt_of_le hcap), if_neg (Nat.not_lt_of_le h)]
  exact congrArg _ (if_neg (Nat.not_lt_of_le h))

theorem step_dictid_short {c : Nat} (h : s.inLen < c + 4) :
    step (s.inEnvelope c .second) = .next ((s.inEnvelope c .second).raise .inputUnderrun) :=
  (step_envelope (s := s.inEnvelope c .second) hst hh).trans (congrArg _ (if_pos h))

theorem step_dictid {c : Nat} (h : c + 4 ≤ s.inLen) :
    step (s.inEnvelope c .second) = .next (s.inEnvelope (c + 4) .third) :=
  (step_envelope (s := s.inEnvelope c .second) hst hh).trans
    (congrArg _ (if_neg (Nat.not_lt_of_le h)))

theorem step_adler_short {c : Nat} (h : s.inLen < c + 4) :
    step (s.inEnvelope c .third) = .next ((s.inEnvelope c .third).raise .inputUnderrun) :=
  (step_envelope (s := s.inEnvelope c .third) hst hh).trans (congrArg _ (if_pos h))

theorem step_adler {c : Nat} (h : c + 4 ≤ s.inLen) :
    step (s.inEnvelope c .third) = .next (s.inStream c) :=
  (step_envelope (s := s.inEnvelope c .third) hst hh).trans
    (congrArg _ (if_neg (Nat.not_lt_of_le h)))

/-- From behind the two bytes of the header, with or without a dictionary id to skip. -/
theorem run_envelope {d : Bool} {start : Nat} (hstart : start = if d = true then 6 else 2) :
    (s.inLen < start + 4 → ∃ k t, k ≤ 2 ∧
      core.run k (s.inEnvelope 2 (if d then .second else .third)) = .next t ∧
        t.state = .error ∧ t.err = 5#4) ∧
    (start + 4 ≤ s.inLen → ∃ k, k ≤ 2 ∧
      core.run k (s.inEnvelope 2 (if d then .second else .third)) = .next (s.inStream start)) := by
  subst hstart
  cases d with
  | false =>
    exact ⟨fun h => ⟨1, _, by decide, run_one (step_adler_short hst hh h), rfl, rfl⟩,
      fun h => ⟨1, by decide, run_one (step_adler hst hh h)⟩⟩
  | true =>
    refine ⟨fun h => ?_, fun h => ?_⟩
    · by_cases h6 : s.inLen < 2 + 4
      · exact ⟨1, _, by decide, run_one (step_dictid_short hst hh h6), rfl, rfl⟩
      · exact ⟨2, _, le_rfl, (run_succ (step_dictid hst hh (Nat.le_of_not_lt h6)) 1).trans
          (run_one (step_adler_short hst hh h)), rfl, rfl⟩
    · exact ⟨2, le_rfl, (run_succ (step_dictid hst hh (Nat.le_of_add_right_le h)) 1).trans
        (run_one (step_adler hst hh h))⟩

end

/-- Settles O32: the header's step, then the rest of the envelope behind it. -/
theorem zlibWindow : Obligations.ZlibWindow := by
  intro s hst hp hh hcap start hstart
  obtain ⟨hshort, hfits⟩ := run_envelope hst hh hstart
  refine ⟨fun h => run_one (step_zhdr_short hst hh hp hcap h), fun h2 h => ?_, fun h => ?_⟩
  · obtain ⟨k, t, hk, hrun, hend⟩ := hshort h
    exact ⟨k + 1, t, Nat.succ_le_succ hk,
      (run_succ (step_zhdr hst hh hp hcap h2) k).trans hrun, hend⟩
  · obtain ⟨k, hk, hrun⟩ := hfits h
    have h2 : 2 ≤ s.inLen := by split at hstart <;> omega
    exact ⟨k + 1, Nat.succ_le_succ hk, (run_succ (step_zhdr hst hh hp hcap h2) k).trans hrun⟩

end Sys2Proof.Machine
end

section
/-! SUPPORT. The host loads an input and starts the call (70_reset_and_hazards.md R187). -/

namespace Sys2Proof

/-- What every address reads as after a load. -/
theorem Mem.read_load (x : Nat) : ∀ {m : Mem} (a : Nat) (bs : List Byte), m.wf = true →
    (m.load a bs).read x =
      if a ≤ x ∧ x < a + bs.length then bs.getD (x - a) 0#8 else m.read x
  | m, a, [], _ => by rw [if_neg (by simp)]; rfl
  | m, a, b :: bs, hwf => by
    rw [Mem.load, read_load x (a + 1) bs (Mem.write_wf a b hwf), Mem.read_write a x b hwf]
    obtain hlt | rfl | hgt := Nat.lt_trichotomy x a
    · rw [if_neg (by omega), if_neg (by omega), if_neg (by omega)]
    · rw [if_neg (by omega), if_pos rfl, if_pos (by simp), Nat.sub_self, List.getD_cons_zero]
    · have hrange :
          (a + 1 ≤ x ∧ x < a + 1 + bs.length) ↔ (a ≤ x ∧ x < a + (b :: bs).length) := by
        rw [List.length_cons]; omega
      rw [if_neg hgt.ne', show x - a = x - (a + 1) + 1 by omega, List.getD_cons_succ]
      simp only [hrange]

namespace Machine

/-- The word of CTRL that the host writes to start a call, as a command. -/
theorem decodeCtrl_start (m : Mode) :
    decodeCtrl (BitVec.ofNat 32 (1 + 2 * modeBit m)) = some (.start m) := by
  cases m <;> decide

/-- The host's write of CTRL starts the call. -/
theorem step_start {s : State} {m : Mode} {ops : List HostOp}
    (h : s.host = .writeCtrl (BitVec.ofNat 32 (1 + 2 * modeBit m)) :: ops) (hb : s.busy = false)
    (hcap : s.inLen ≤ s.par.inCap) :
    step s = .next (State.begin { s with mode := m, host := ops }) := by
  rw [step_of_host_cons h, fetchHost_start _ (decodeCtrl_start m)]
  exact begin_eq_start (s := { s with mode := m, host := ops }) hb hcap

/-- The host's accesses for the bytes from address `a` on, one step each. -/
theorem run_callOps {m : Mode} : ∀ (bs : List Byte) {s : State} {a : Nat}, s.busy = false →
    a + bs.length ≤ s.par.inCap → s.host = callOps m bs a →
    core.run (bs.length + 2) s =
      .next (State.begin
        { s with
          mode := m, inLen := a + bs.length, inMem := s.inMem.load a bs, host := [] })
  | [], s, a, hb, hcap, h => by
    have hlen : a % 2 ^ s.par.wIn = a :=
      Nat.mod_eq_of_lt (Nat.lt_of_le_of_lt hcap (inCap_lt_two_pow_wIn s.par))
    have hstep := step_writeInLen h hb
    rw [hlen] at hstep
    rw [List.length_nil, Nat.zero_add, run_succ hstep]
    exact run_one (step_start rfl hb hcap)
  | b :: bs, s, a, hb, hcap, h => by
    rw [List.length_cons, Nat.add_comm bs.length 1, ← Nat.add_assoc] at hcap ⊢
    rw [Nat.add_comm 1, Nat.add_right_comm]
    exact (run_succ (step_writeIn h hb (by omega)) _).trans (run_callOps bs hb hcap rfl)

/-- A begun call keeps the input. -/
theorem begin_inMem (s : State) : s.begin.inMem = s.inMem := by
  unfold State.begin
  split <;> rfl

/-- Settles O41: the accesses by their run, the bytes by what a load reads as. -/
theorem loadAndStart : Obligations.LoadAndStart := by
  intro s m bs hb hwf hcap h
  have hrun := run_callOps bs hb (by omega) h
  rw [Nat.zero_add] at hrun
  refine ⟨_, hrun, ?_, fun x => ?_⟩
  · rw [begin_inMem]
  · rw [begin_inMem, Mem.read_load x 0 bs hwf]
    simp

end Machine

end Sys2Proof
end

section
/-! SUPPORT. The unread part of the stream as a list of bits, what each read takes off its front,
and decoding an element that is not Huffman-coded: what comes out is what was encoded. -/

namespace Sys2Proof

namespace Reader

theorem bitsFrom_eq_map (r : Reader) : ∀ k n, r.bitsFrom k n = (List.range' k n).map r.bitAt
  | _, 0 => rfl
  | k, n + 1 => by rw [bitsFrom, bitsFrom_eq_map, List.range'_succ, List.map_cons]

theorem bitAt_congr {r r' : Reader} (h : r'.mem = r.mem) : r'.bitAt = r.bitAt := by
  funext k
  rw [bitAt, bitAt, h]

theorem unread_eq_map (r : Reader) :
    r.unread = (List.range' r.pos (r.endPos - r.pos)).map r.bitAt := r.bitsFrom_eq_map _ _

theorem unread_length (r : Reader) : r.unread.length = r.endPos - r.pos := by
  rw [unread_eq_map, List.length_map, List.length_range']

/-- Bit `j` of the unread part (00_scope.md R8). -/
theorem unread_getD {r : Reader} {j : Nat} (h : j < r.unread.length) :
    r.unread.getD j false = r.bitAt (r.pos + j) := by
  rw [unread_length] at h
  simp [unread_eq_map, h]

/-- Reading on takes the bits read off the front of the unread part. -/
theorem unread_drop {r r' : Reader} {n : Nat} (hm : r'.mem = r.mem) (hl : r'.limit = r.limit)
    (hp : r'.pos = r.pos + n) : r'.unread = r.unread.drop n := by
  rw [unread_eq_map, unread_eq_map, bitAt_congr hm, hp, endPos, hl, ← endPos, ← List.map_drop,
    List.drop_range', Nat.sub_sub, Nat.mul_one]

/-- A reader with something unread is inside its window. -/
theorem byteCursor_lt_of_unread {r : Reader} (h : r.unread ≠ []) : r.byteCursor < r.limit := by
  have hlen := List.length_pos_of_ne_nil h
  rw [unread_length, endPos, pos] at hlen
  omega

end Reader

/-- The read `x`, made from `r`, gives `a`: the unread part is then `rest`, and the window is the
same. -/
def Read.Gives {α : Type} (x : Read α) (r : Reader) (a : α) (rest : List Bool) : Prop :=
  ∃ r', x = .ok a r' ∧ r'.unread = rest ∧ r'.mem = r.mem ∧ r'.limit = r.limit

theorem Read.Gives.refl {α : Type} (a : α) {r : Reader} {rest : List Bool}
    (h : r.unread = rest) : (Read.ok a r).Gives r a rest := ⟨r, rfl, h, rfl, rfl⟩

/-- A read made further on gives the same, seen from before. -/
theorem Read.Gives.rebase {α : Type} {x : Read α} {r r' : Reader} {a : α} {rest : List Bool}
    (h : x.Gives r' a rest) (hm : r'.mem = r.mem) (hl : r'.limit = r.limit) : x.Gives r a rest := by
  obtain ⟨r'', hx, hrest, hm', hl'⟩ := h
  exact ⟨r'', hx, hrest, hm'.trans hm, hl'.trans hl⟩

theorem Read.Gives.bind {α β : Type} {x : Read α} {f : α → Reader → Read β} {r : Reader} {a : α}
    {b : β} {w rest : List Bool} (hx : x.Gives r a w)
    (hf : ∀ r', r'.unread = w → (f a r').Gives r' b rest) : (x.bind f).Gives r b rest := by
  obtain ⟨r', rfl, hw, hm, hl⟩ := hx
  exact (hf r' hw).rebase hm hl

/-! The bits of a raw field (30_encoding.md R77). -/

@[simp] theorem rawBits_length : ∀ n v, (rawBits n v).length = n
  | 0, _ => rfl
  | n + 1, v => by rw [rawBits, List.length_cons, rawBits_length]

theorem rawBits_getD : ∀ {n j : Nat} (v : Nat), j < n → (rawBits n v).getD j false = v.testBit j
  | n + 1, 0, v, _ => rfl
  | n + 1, j + 1, v, h => by
    rw [rawBits, List.getD_cons_succ, rawBits_getD _ (Nat.lt_of_succ_lt_succ h), Nat.testBit_succ]

/-- The bits of a wide field are those of its low part, then those of its high part. -/
theorem rawBits_add (n : Nat) : ∀ m v, rawBits (m + n) v = rawBits m v ++ rawBits n (v / 2 ^ m)
  | 0, v => by rw [Nat.zero_add, pow_zero, Nat.div_one, rawBits, List.nil_append]
  | m + 1, v => by
    rw [Nat.add_right_comm, rawBits, rawBits, rawBits_add n m, List.cons_append,
      Nat.div_div_eq_div_mul, ← pow_succ']

namespace Reader

variable {r : Reader} {rest : List Bool}

/-- `next_bit` takes the first unread bit (40_bit_reader.md R91). -/
theorem nextBit_gives {b : Bool} (h : r.unread = b :: rest) : r.nextBit.Gives r b rest := by
  obtain ⟨r', he, hp, hm, hl, -⟩ :=
    nextBit_ok (byteCursor_lt_of_unread (h ▸ List.cons_ne_nil b rest))
  have hb : r.bitAt r.pos = b := by
    rw [← Nat.add_zero r.pos, ← unread_getD (by simp [h]), h, List.getD_cons_zero]
  exact ⟨r', he.trans (hb ▸ rfl), by rw [unread_drop hm hl hp, h]; rfl, hm, hl⟩

/-- `next_bits(n)` gives the low `n` bits of the value encoded (40_bit_reader.md R92). -/
theorem nextBits_gives : ∀ {n v : Nat} {r : Reader}, r.unread = rawBits n v ++ rest →
    (r.nextBits n).Gives r (v % 2 ^ n) rest
  | 0, v, r, h => by
    rw [pow_zero, Nat.mod_one]
    exact .refl 0 h
  | n + 1, v, r, h => by
    have hv : v % 2 ^ (n + 1) = (v.testBit 0).toNat + 2 * (v / 2 % 2 ^ n) := by
      rw [Nat.testBit_zero, pow_succ', Nat.mod_mul]
      congr 1
      obtain h0 | h1 := Nat.mod_two_eq_zero_or_one v
      · simp [h0]
      · simp [h1]
    rw [hv]
    exact (nextBit_gives h).bind fun _ hr => (nextBits_gives hr).bind fun _ hr => .refl _ hr

/-- `next_byte` leaves the cursor at a byte boundary (40_bit_reader.md R94). -/
theorem nextByte_aligned {r r' : Reader} {x : Byte} (h : r.nextByte = .ok x r') :
    r'.bitCursor = 0#3 := by
  unfold nextByte at h
  dsimp only at h
  split at h
  · cases h
  · cases h
    exact r.align_bitCursor

/-- `next_byte` at a byte boundary gives the byte encoded (40_bit_reader.md R94). -/
theorem nextByte_gives {v : Nat} (h0 : r.bitCursor = 0#3) (h : r.unread = rawBits 8 v ++ rest) :
    r.nextByte.Gives r (BitVec.ofNat 8 v) rest := by
  have hlt : r.byteCursor < r.limit :=
    byteCursor_lt_of_unread (by rw [h]; exact List.cons_ne_nil _ _)
  have hpos : r.pos = 8 * r.byteCursor := by rw [pos, h0]; rfl
  have hread : r.mem.read r.byteCursor = BitVec.ofNat 8 v := by
    refine BitVec.eq_of_getLsbD_eq fun j hj => ?_
    have hbit : r.bitAt (r.pos + j) = v.testBit j := by
      rw [← unread_getD (by simp [h]; omega), h, List.getD_append _ _ _ _ (by simpa using hj),
        rawBits_getD _ hj]
    rw [bitAt, hpos, Nat.mul_add_div (by decide), Nat.mul_add_mod, Nat.div_eq_of_lt hj,
      Nat.mod_eq_of_lt hj] at hbit
    rw [BitVec.getLsbD_ofNat, decide_eq_true hj, Bool.true_and]
    exact hbit
  refine ⟨{ r with byteCursor := r.byteCursor + 1 }, ?_, ?_, rfl, rfl⟩
  · rw [nextByte, align_of_aligned h0, ← hread]
    exact if_neg (Nat.not_le.2 hlt)
  · have hdrop : Reader.unread { r with byteCursor := r.byteCursor + 1 } = r.unread.drop 8 :=
      unread_drop rfl rfl (by simp only [pos]; omega)
    rw [hdrop, h]
    exact List.drop_left' (rawBits_length 8 _)

/-- `next_bytes_as_number(n)` at a byte boundary gives the low `n` bytes of the value encoded
(40_bit_reader.md R95). -/
theorem nextBytesAsNumber_gives : ∀ {n v : Nat} {r : Reader}, r.bitCursor = 0#3 →
    r.unread = rawBits (8 * n) v ++ rest → (r.nextBytesAsNumber n).Gives r (v % 256 ^ n) rest
  | 0, v, r, _, h => by
    rw [pow_zero, Nat.mod_one]
    exact .refl 0 h
  | n + 1, v, r, h0, h => by
    rw [Nat.mul_succ, Nat.add_comm, rawBits_add, List.append_assoc] at h
    obtain ⟨r', he, hr', hm, hl⟩ := nextByte_gives h0 h
    have hv : v % 256 ^ (n + 1) = v % 2 ^ 8 + 256 * (v / 2 ^ 8 % 256 ^ n) := by
      rw [pow_succ']
      exact Nat.mod_mul
    rw [nextBytesAsNumber, he, hv, ← BitVec.toNat_ofNat]
    refine Read.Gives.rebase ?_ hm hl
    exact (nextBytesAsNumber_gives (nextByte_aligned he) hr').bind fun _ hr => .refl _ hr

/-- `align` skips the pad, whatever its bits (40_bit_reader.md R93). -/
theorem align_unread (r : Reader) : r.align.unread = r.unread.drop ((8 - r.pos % 8) % 8) := by
  have hlt := r.bitCursor_lt
  refine unread_drop r.align_later.mem r.align_later.limit ?_
  by_cases h0 : r.bitCursor = 0#3
  · rw [align_of_aligned h0, pos, h0, BitVec.toNat_zero]; omega
  · have : r.bitCursor.toNat ≠ 0 := fun h => h0 (BitVec.eq_of_toNat_eq h)
    simp only [align, h0, if_false, pos, BitVec.toNat_zero]
    omega

end Reader

/-! Decoding what was encoded. -/

section
variable {r : Reader} {rest : List Bool}

theorem rawField_gives {n v : Nat} (f : Nat → Instr) (h : r.unread = rawBits n v ++ rest) :
    (rawField n f r).Gives r (f (v % 2 ^ n)) rest :=
  (Reader.nextBits_gives h).bind fun _ hr => .refl _ hr

/-- The low `n` bits of a value are what a register of that width holds of it. -/
theorem ofNat_toNat_mod {n : Nat} (v : BitVec n) : BitVec.ofNat n (v.toNat % 2 ^ n) = v := by
  simp

/-- A raw field read into its register is the value encoded. -/
theorem rawField_ofNat_gives {n : Nat} (c : BitVec n → Instr) (v : BitVec n)
    (h : r.unread = rawBits n v.toNat ++ rest) :
    (rawField n (fun x => c (BitVec.ofNat n x)) r).Gives r (c v) rest := by
  have hfield := rawField_gives (fun x => c (BitVec.ofNat n x)) h
  rwa [ofNat_toNat_mod] at hfield

/-- Two bytes read into a register of 16 bits are the value encoded (40_bit_reader.md R95). -/
theorem twoBytes_ofNat_gives (c : BitVec 16 → Instr) (v : BitVec 16) (h0 : r.bitCursor = 0#3)
    (h : r.unread = rawBits 16 v.toNat ++ rest) :
    ((r.nextBytesAsNumber 2).bind fun x r => .ok (c (BitVec.ofNat 16 x)) r).Gives r (c v) rest := by
  have hx : (r.nextBytesAsNumber 2).Gives r v.toNat rest := by
    rw [← Nat.mod_eq_of_lt (show v.toNat < 256 ^ 2 from v.isLt)]
    exact Reader.nextBytesAsNumber_gives h0 h
  refine hx.bind fun _ hr => ?_
  rw [BitVec.ofNat_toNat, BitVec.setWidth_eq]
  exact .refl _ hr

/-- The code-length lengths, read in the order sent (30_encoding.md R67). -/
theorem decodeClLens_gives : ∀ {vs : List (BitVec 3)} {r : Reader},
    r.unread = (vs.flatMap fun v => rawBits 3 v.toNat) ++ rest →
    (decodeClLens vs.length r).Gives r vs rest
  | [], r, h => .refl [] h
  | v :: vs, r, h => by
    rw [List.flatMap_cons, List.append_assoc] at h
    refine (Reader.nextBits_gives h).bind fun _ hr => (decodeClLens_gives hr).bind fun _ hr => ?_
    rw [ofNat_toNat_mod]
    exact .refl _ hr

/-- An element of raw fields, or of whole bytes at a byte boundary, is decoded as encoded
(30_encoding.md R76, R77). -/
theorem decode_raw_gives {k : Codebook} {i : Instr} {e : Expect} (he : i.rawExpect = some e)
    (ha : i.byteAligned = true → r.bitCursor = 0#3) (h : r.unread = encode k r.pos i ++ rest) :
    (decode e r).Gives r i rest := by
  cases i <;> cases he
  case blockStored f =>
    exact (Reader.nextBit_gives h).bind fun _ hr =>
      (Reader.nextBits_gives (n := 2) (v := 0) hr).bind fun _ hr => .refl _ hr
  case blockFixed f =>
    exact (Reader.nextBit_gives h).bind fun _ hr =>
      (Reader.nextBits_gives (n := 2) (v := 1) hr).bind fun _ hr => .refl _ hr
  case blockDynamic f =>
    exact (Reader.nextBit_gives h).bind fun _ hr =>
      (Reader.nextBits_gives (n := 2) (v := 2) hr).bind fun _ hr => .refl _ hr
  case blockReserved f =>
    exact (Reader.nextBit_gives h).bind fun _ hr =>
      (Reader.nextBits_gives (n := 2) (v := 3) hr).bind fun _ hr => .refl _ hr
  case pad =>
    refine ⟨r.align, rfl, ?_, r.align_later.mem, r.align_later.limit⟩
    rw [Reader.align_unread, h]
    exact List.drop_left' (List.length_replicate ..)
  case len16 n => exact twoBytes_ofNat_gives .len16 n (ha rfl) h
  case nlen16 n => exact twoBytes_ofNat_gives .nlen16 n (ha rfl) h
  case byte x =>
    refine (Reader.nextByte_gives (ha rfl) h).bind fun _ hr => ?_
    rw [BitVec.ofNat_toNat, BitVec.setWidth_eq]
    exact .refl _ hr
  case hlit v => exact rawField_ofNat_gives .hlit v h
  case hdist v => exact rawField_ofNat_gives .hdist v h
  case hclen v => exact rawField_ofNat_gives .hclen v h
  case cllen vs => exact (decodeClLens_gives h).bind fun _ hr => .refl _ hr

end

/-- The header of the envelope, bit by bit of its two bytes (44_stream_and_wrapper.md R150). -/
theorem decodeEnvelope_of_bits {k : Codebook} {p : Nat} {b0 b1 : Byte} {m : Mem}
    (h : ∀ j < 16, (m.read (j / 8)).getLsbD (j % 8) = (encode k p (.zhdr b0 b1)).getD j false) :
    decodeEnvelope m = .zhdr b0 b1 := by
  rw [encode] at h
  have h0 : m.read 0 = b0 := BitVec.eq_of_getLsbD_eq fun j hj => by
    have := h j (by omega)
    rwa [List.getD_append _ _ _ _ (by simpa using hj), rawBits_getD _ hj, Nat.div_eq_of_lt hj,
      Nat.mod_eq_of_lt hj] at this
  have h1 : m.read 1 = b1 := BitVec.eq_of_getLsbD_eq fun j hj => by
    have := h (8 + j) (by omega)
    rwa [List.getD_append_right _ _ _ _ (by simp), rawBits_length, Nat.add_sub_cancel_left,
      rawBits_getD _ hj, Nat.add_div_left _ (by decide), Nat.div_eq_of_lt hj, Nat.add_mod_left,
      Nat.mod_eq_of_lt hj] at this
  rw [decodeEnvelope, h0, h1]

/-- A word of CTRL with the bits of a START is that START (10_state.md R16). -/
theorem decodeCtrl_of_bits {k : Codebook} {p : Nat} {m : Mode} {v : BitVec 32}
    (h : ∀ j < 32, v.getLsbD j = (encode k p (.start m)).getD j false) :
    decodeCtrl v = some (.start m) := by
  have h0 : v.getLsbD 0 = true := h 0 (by decide)
  have h1 : v.getLsbD 1 = (m == .zlib) := h 1 (by decide)
  rw [decodeCtrl, h0, h1]
  cases m <;> rfl

/-- Settles O2: the elements of the stream by their own reads, the two others bit by bit. -/
theorem rawElementsRoundTrip : Obligations.RawElementsRoundTrip :=
  ⟨fun _ _ _ _ _ he ha h => decode_raw_gives he ha h, fun _ _ _ _ _ h => decodeEnvelope_of_bits h,
    fun _ _ _ _ h => decodeCtrl_of_bits h⟩

end Sys2Proof
end

section
/-! SUPPORT. The walk of a code over a tree, and decoding a Huffman-coded element: what comes out is
what was encoded. -/

namespace Sys2Proof

namespace Tree

/-- The walk over a list of bits from the node it has reached, which `arrive` makes over the stream
(41_huffman_decoder.md R105, R109). -/
def follow : Tree → List Bool → Option (BitVec 9 × List Bool)
  | nil, _ => none
  | node (some s) _ _, w => some (s, w)
  | node none _ _, [] => none
  | node none c0 c1, b :: w => if b then c1.follow w else c0.follow w

theorem walk_eq_follow : ∀ (t : Tree) (w : List Bool), t.walk w = t.asRoot.follow w
  | nil, [] => rfl
  | node _ _ _, [] => rfl
  | nil, b :: w => by cases b <;> rfl
  | node x c0 c1, b :: w => by
    have hchild : ∀ c : Tree, (node x c c).walk (b :: w) = c.follow w := by
      intro c
      rw [walk, ite_self]
      match c with
      | nil => rfl
      | node (some _) _ _ => rfl
      | node none d0 d1 => exact walk_eq_follow (node none d0 d1) w
    cases b
    · exact hchild c0
    · exact hchild c1

/-- What `arrive` gives is what the walk over the unread bits gives. -/
theorem arrive_gives {s : BitVec 9} {w : List Bool} : ∀ {t : Tree} {r : Reader},
    t.follow r.unread = some (s, w) → (t.arrive r).Gives r s w
  | nil, _, h => by cases h
  | node (some x) c0 c1, r, h => by
    rw [follow] at h
    injection h with h
    injection h with hs hw
    exact hs ▸ .refl x hw
  | node none c0 c1, r, h => by
    cases hu : r.unread with
    | nil => rw [hu] at h; cases h
    | cons b u =>
      rw [hu] at h
      obtain ⟨r', he, hr', hm, hl⟩ := Reader.nextBit_gives hu
      rw [arrive, he]
      refine Read.Gives.rebase ?_ hm hl
      cases b
      · exact arrive_gives (t := c0) (hr' ▸ h)
      · exact arrive_gives (t := c1) (hr' ▸ h)

/-- `decode_symbol` gives the symbol the walk meets, and leaves what the walk leaves
(41_huffman_decoder.md R105). -/
theorem decodeSymbol_gives {t : Tree} {r : Reader} {s : BitVec 9} {w : List Bool}
    (h : t.walk r.unread = some (s, w)) : (t.decodeSymbol r).Gives r s w :=
  arrive_gives (walk_eq_follow t _ ▸ h)

/-- A code that walks to its symbol is decoded as that symbol, whatever follows it. -/
theorem decodeSymbol_code {t : Tree} {c : List Bool} {s : BitVec 9} {r : Reader} {x : List Bool}
    (hwalk : ∀ w, t.walk (c ++ w) = some (s, w)) (h : r.unread = c ++ x) :
    (t.decodeSymbol r).Gives r s x :=
  decodeSymbol_gives (h ▸ hwalk x)

end Tree

/-! The elements by their symbol. -/

/-- A LENGTH element is the one its symbol and its extra value make, the value within its field
(30_encoding.md R70). -/
theorem lengthElement_of_parts {i : Instr} {y x : Nat} (h : i.lengthParts = some (y, x)) :
    isLength y = true ∧ lengthElement y x = i ∧ x < 2 ^ entry lenExtra (y - 257) := by
  have hmake : isLength y = true ∧ lengthElement y x = i := by
    cases i <;> cases h <;> simp [isLength, lengthElement]
  obtain ⟨hy, hi⟩ := hmake
  have hparts := lengthElement_parts x hy
  rw [hi, h] at hparts
  refine ⟨hy, hi, ?_⟩
  injection hparts with hpair
  injection hpair with _ hx
  exact hx ▸ Nat.mod_lt _ (Nat.two_pow_pos _)

/-- A DIST element is the one its symbol and its extra value make, the value within its field
(30_encoding.md R71). -/
theorem distElement_of_parts {i : Instr} {d y : Nat} (h : i.distParts = some (d, y)) :
    d ≤ 29 ∧ distElement d y = i ∧ y < 2 ^ entry distExtra d := by
  have hmake : d ≤ 29 ∧ distElement d y = i := by
    cases i <;> cases h <;> simp [distElement]
  obtain ⟨hd, hi⟩ := hmake
  have hparts := distElement_parts y hd
  rw [hi, h] at hparts
  refine ⟨hd, hi, ?_⟩
  injection hparts with hpair
  injection hpair with _ hy
  exact hy ▸ Nat.mod_lt _ (Nat.two_pow_pos _)

theorem encode_of_lengthParts {i : Instr} {p : Nat × Nat} (h : i.lengthParts = some p)
    (k : Codebook) (pos : Nat) : encode k pos i = encodeLength k p := by
  cases i <;> cases h <;> rfl

theorem encode_of_distParts {i : Instr} {p : Nat × Nat} (h : i.distParts = some p)
    (k : Codebook) (pos : Nat) : encode k pos i = encodeDist k p := by
  cases i <;> cases h <;> rfl

/-- The elements that carry a literal/length symbol (30_encoding.md R69). -/
theorem llSymbol_cases {i : Instr} {n : Nat} (h : i.llSymbol = some n) :
    (∃ x, i = .lit x ∧ n = x.toNat) ∨ (i = .eob ∧ n = 256) ∨ (i = .llsym286 ∧ n = 286) ∨
      (i = .llsym287 ∧ n = 287) ∨ ∃ x, i.lengthParts = some (n, x) := by
  unfold Instr.llSymbol at h
  split at h
  · cases h; exact .inl ⟨_, rfl, rfl⟩
  · cases h; exact .inr (.inl ⟨rfl, rfl⟩)
  · cases h; exact .inr (.inr (.inl ⟨rfl, rfl⟩))
  · cases h; exact .inr (.inr (.inr (.inl ⟨rfl, rfl⟩)))
  · obtain ⟨⟨y, x⟩, hp, rfl⟩ := Option.map_eq_some_iff.1 h
    exact .inr (.inr (.inr (.inr ⟨x, hp⟩)))

/-- The elements that carry a distance symbol (30_encoding.md R69). -/
theorem dSymbol_cases {i : Instr} {n : Nat} (h : i.dSymbol = some n) :
    (i = .dsym30 ∧ n = 30) ∨ (i = .dsym31 ∧ n = 31) ∨ ∃ y, i.distParts = some (n, y) := by
  unfold Instr.dSymbol at h
  split at h
  · cases h; exact .inl ⟨rfl, rfl⟩
  · cases h; exact .inr (.inl ⟨rfl, rfl⟩)
  · obtain ⟨⟨d, y⟩, hp, rfl⟩ := Option.map_eq_some_iff.1 h
    exact .inr (.inr ⟨y, hp⟩)

theorem llElement_of_isLength {y : Nat} (h : isLength y = true) (r : Reader) :
    llElement y r = rawField (entry lenExtra (y - 257)) (lengthElement y) r := by
  obtain ⟨lo, hi⟩ := isLength_iff.1 h
  rw [llElement, if_neg (by omega), if_neg (by omega), if_pos h]

section
variable {k : Codebook} {t : Tree} {i : Instr} {n : Nat} {r : Reader} {rest : List Bool}

/-- A code-length element is decoded as encoded (30_encoding.md R68); a CL16 not as the first symbol
(42_block_state_machine.md R120). -/
theorem decode_clSym_gives {first : Bool} (hn : i.clSymbol = some n)
    (hwalk : ∀ w, t.walk (k.cl n ++ w) = some (BitVec.ofNat 9 n, w))
    (hfirst : first = true → n ≠ 16) (h : r.unread = encode k r.pos i ++ rest) :
    (decode (.clSym t first) r).Gives r i rest := by
  cases i <;> cases hn
  case cl v =>
    have hv : (BitVec.ofNat 9 v.toNat).toNat = v.toNat := by simp; omega
    refine (Tree.decodeSymbol_code hwalk h).bind fun r' hr => ?_
    rw [clElement, hv, if_pos (by omega), BitVec.ofNat_toNat, BitVec.setWidth_eq]
    exact .refl _ hr
  all_goals rw [encode, List.append_assoc] at h
  case cl16 v =>
    obtain rfl : first = false := by simpa using hfirst
    exact (Tree.decodeSymbol_code hwalk h).bind fun _ hr => rawField_ofNat_gives .cl16 v hr
  case cl17 v =>
    exact (Tree.decodeSymbol_code hwalk h).bind fun _ hr => rawField_ofNat_gives .cl17 v hr
  case cl18 v =>
    exact (Tree.decodeSymbol_code hwalk h).bind fun _ hr => rawField_ofNat_gives .cl18 v hr

/-- A literal/length element is decoded as encoded (30_encoding.md R69). -/
theorem decode_llSym_gives (hn : i.llSymbol = some n)
    (hwalk : ∀ w, t.walk (k.ll n ++ w) = some (BitVec.ofNat 9 n, w))
    (h : r.unread = encode k r.pos i ++ rest) : (decode (.llSym t) r).Gives r i rest := by
  obtain ⟨v, rfl, rfl⟩ | ⟨rfl, rfl⟩ | ⟨rfl, rfl⟩ | ⟨rfl, rfl⟩ | ⟨x, hp⟩ := llSymbol_cases hn
  · have hv : (BitVec.ofNat 9 v.toNat).toNat = v.toNat := by simp; omega
    refine (Tree.decodeSymbol_code hwalk h).bind fun r' hr => ?_
    rw [hv, llElement, if_pos (by omega), BitVec.ofNat_toNat, BitVec.setWidth_eq]
    exact .refl _ hr
  · exact (Tree.decodeSymbol_code hwalk h).bind fun _ hr => .refl _ hr
  · exact (Tree.decodeSymbol_code hwalk h).bind fun _ hr => .refl _ hr
  · exact (Tree.decodeSymbol_code hwalk h).bind fun _ hr => .refl _ hr
  · obtain ⟨hy, rfl, hx⟩ := lengthElement_of_parts hp
    obtain ⟨lo, hi⟩ := isLength_iff.1 hy
    rw [encode_of_lengthParts hp, encodeLength, List.append_assoc] at h
    refine (Tree.decodeSymbol_code hwalk h).bind fun r' hr => ?_
    rw [BitVec.toNat_ofNat, Nat.mod_eq_of_lt (by omega), llElement_of_isLength hy]
    have hfield := rawField_gives (lengthElement n) hr
    rwa [Nat.mod_eq_of_lt hx] at hfield

/-- A distance element is decoded as encoded (30_encoding.md R69). -/
theorem decode_dSym_gives (hn : i.dSymbol = some n)
    (hwalk : ∀ w, t.walk (k.d n ++ w) = some (BitVec.ofNat 9 n, w))
    (h : r.unread = encode k r.pos i ++ rest) : (decode (.dSym t) r).Gives r i rest := by
  obtain ⟨rfl, rfl⟩ | ⟨rfl, rfl⟩ | ⟨y, hp⟩ := dSymbol_cases hn
  · exact (Tree.decodeSymbol_code hwalk h).bind fun _ hr => .refl _ hr
  · exact (Tree.decodeSymbol_code hwalk h).bind fun _ hr => .refl _ hr
  · obtain ⟨hd, rfl, hy⟩ := distElement_of_parts hp
    rw [encode_of_distParts hp, encodeDist, List.append_assoc] at h
    refine (Tree.decodeSymbol_code hwalk h).bind fun r' hr => ?_
    rw [BitVec.toNat_ofNat, Nat.mod_eq_of_lt (by omega), dElement, if_pos hd]
    have hfield := rawField_gives (distElement n) hr
    rwa [Nat.mod_eq_of_lt hy] at hfield

end

/-- Settles O3: the symbol by the walk of its code, then the extra bits as a raw field. -/
theorem codedElementsRoundTrip : Obligations.CodedElementsRoundTrip :=
  fun _ _ _ _ _ _ h =>
    ⟨fun hn hwalk _ hfirst => decode_clSym_gives hn hwalk hfirst h,
      fun hn hwalk => decode_llSym_gives hn hwalk h, fun hn hwalk => decode_dSym_gives hn hwalk h⟩

end Sys2Proof
end

section
/-! SUPPORT. What a walk does with more bits, and the two fixed codes (30_encoding.md R64, R65). -/

namespace Sys2Proof

namespace Tree

/-- Bits behind those a walk has used are left as they are. -/
theorem follow_append {s : BitVec 9} {q w : List Bool} : ∀ {t : Tree} {u : List Bool},
    t.follow u = some (s, q) → t.follow (u ++ w) = some (s, q ++ w)
  | nil, _, h => by cases h
  | node (some _) _ _, u, h => by
    cases h
    rfl
  | node none _ _, [], h => by cases h
  | node none c0 c1, b :: u, h => by
    cases b
    · exact follow_append (t := c0) h
    · exact follow_append (t := c1) h

/-- A walk that meets no leaf before it leaves the tree finds none later. -/
theorem follow_append_of_missing {w : List Bool} : ∀ {t : Tree} {u : List Bool},
    t.follow u = none → t.hasNode u = false → t.follow (u ++ w) = none
  | nil, _, _, _ => rfl
  | node (some _) _ _, _, h, _ => by cases h
  | node none _ _, [], _, h => by cases h
  | node none c0 c1, b :: u, h, hn => by
    cases b
    · exact follow_append_of_missing (t := c0) h hn
    · exact follow_append_of_missing (t := c1) h hn

/-- Behind a bit string without a node there is none either. -/
theorem hasNode_append_of_missing {w : List Bool} : ∀ {t : Tree} {u : List Bool},
    t.hasNode u = false → t.hasNode (u ++ w) = false
  | nil, u, _ => by cases u ++ w <;> rfl
  | node _ _ _, [], h => by cases h
  | node _ c0 c1, b :: u, h => by
    cases b
    · exact hasNode_append_of_missing (t := c0) h
    · exact hasNode_append_of_missing (t := c1) h

/-- Every walk of `n` bits from here meets a leaf. -/
def leafWithin : Nat → Tree → Bool
  | _, node (some _) _ _ => true
  | n + 1, node none c0 c1 => leafWithin n c0 && leafWithin n c1
  | _, _ => false

theorem follow_isSome_of_leafWithin : ∀ {n : Nat} {t : Tree} {w : List Bool},
    leafWithin n t = true → n ≤ w.length → (t.follow w).isSome = true
  | _, nil, _, h, _ => by simp [leafWithin] at h
  | _, node (some _) _ _, _, _, _ => rfl
  | 0, node none _ _, _, h, _ => by cases h
  | n + 1, node none c0 c1, b :: w, h, hw => by
    rw [leafWithin, Bool.and_eq_true] at h
    obtain ⟨h0, h1⟩ := h
    cases b
    · exact follow_isSome_of_leafWithin (t := c0) h0 (Nat.le_of_succ_le_succ hw)
    · exact follow_isSome_of_leafWithin (t := c1) h1 (Nat.le_of_succ_le_succ hw)

theorem walk_append {t : Tree} {u q : List Bool} {s : BitVec 9} (h : t.walk u = some (s, q))
    (w : List Bool) : t.walk (u ++ w) = some (s, q ++ w) := by
  rw [walk_eq_follow] at h ⊢
  exact follow_append h

end Tree

/-- The counts of the fixed literal/length lengths (30_encoding.md R64). -/
theorem countLens_fixedLlLen :
    countLens fixedLlLen = [0, 0, 0, 0, 0, 0, 0, 24, 152, 112, 0, 0, 0, 0, 0, 0] := by
  decide +kernel

/-- The code of each symbol ends at the symbol's leaf (30_encoding.md R64). -/
theorem fixedLlTree_walk_code :
    ∀ s < 288, fixedLlTree.walk (fixedLlCode s) = some (BitVec.ofNat 9 s, []) := by
  rw [← fixedLlRom_eq]
  decide +kernel

/-- No string of 9 bits leaves the tree: the code is complete (30_encoding.md R64). -/
theorem fixedLlTree_leafWithin : fixedLlTree.asRoot.leafWithin 9 = true := by
  rw [← fixedLlRom_eq]
  decide +kernel

/-- Settles O14: the codes by their walks over the constant tree, completeness by its depth. -/
theorem fixedLiteralLengthCode : Obligations.FixedLiteralLengthCode := by
  unfold Obligations.FixedLiteralLengthCode
  rw [countLens_fixedLlLen]
  refine ⟨rfl, rfl, rfl, rfl, rfl, rfl, fun s hs w => ?_, fun w hw => ?_, ?_⟩
  · exact Tree.walk_append (fixedLlTree_walk_code s hs) w
  · rw [Tree.walk_eq_follow]
    exact Tree.follow_isSome_of_leafWithin fixedLlTree_leafWithin hw
  · rw [← fixedLlRom_eq]
    decide +kernel

/-- The code of each symbol ends at the symbol's leaf (30_encoding.md R65). -/
theorem fixedDTree_walk_code :
    ∀ d < 30, fixedDTree.walk (huffBits 5 d) = some (BitVec.ofNat 9 d, []) := by
  decide +kernel

/-- The prefix `1111` has no node (30_encoding.md R65). -/
theorem fixedDTree_missing : fixedDTree.hasNode [true, true, true, true] = false := by
  decide +kernel

/-- Settles O15: the codes by their walks, and `1111` as the prefix that leaves the tree. -/
theorem fixedDistanceCode : Obligations.FixedDistanceCode := by
  refine ⟨fun d hd w => Tree.walk_append (fixedDTree_walk_code d hd) w, by decide +kernel,
    fun w => Tree.hasNode_append_of_missing fixedDTree_missing, fun w => ?_, by decide +kernel⟩
  rw [Tree.walk_eq_follow]
  exact Tree.follow_append_of_missing (by decide +kernel) (by decide +kernel)

/-- Settles O1: each word is decoded at the start of a window of its own bytes. -/
theorem tableWordsDecode : Obligations.TableWordsDecode := by
  unfold Obligations.TableWordsDecode
  decide +kernel

end Sys2Proof
end

section
/-! SUPPORT. Where CLLEN places its lengths (42_block_state_machine.md R116). -/

namespace Sys2Proof.Machine

theorem getD_set_of_ne {α : Type} {xs : List α} {i j : Nat} {v d : α} (h : i ≠ j) :
    (xs.set i v).getD j d = xs.getD j d := by
  rw [List.getD_eq_getElem?_getD, List.getElem?_set_ne h, ← List.getD_eq_getElem?_getD]

/-- A slot that no position names is left as it was. -/
theorem permute_getD_of_notMem {q : Nat} (d : BitVec 3) :
    ∀ {ps : List Nat} {vs a : List (BitVec 3)},
    q ∉ ps → (permute ps vs a).getD q d = a.getD q d
  | [], _, _, _ => rfl
  | _ :: _, [], _, _ => rfl
  | p :: ps, v :: vs, a, h => by
    obtain ⟨hp, hps⟩ := not_or.1 (mt List.mem_cons.2 h)
    rw [permute, permute_getD_of_notMem d hps, getD_set_of_ne (Ne.symm hp)]

/-- Slot `ps[i]` takes the `i`-th length sent, and is left as it was where none is sent. -/
theorem permute_getD (d : BitVec 3) : ∀ {ps : List Nat} {vs a : List (BitVec 3)} {i : Nat},
    ps.Nodup → (∀ p ∈ ps, p < a.length) → i < ps.length →
    (permute ps vs a).getD (ps.getD i 0) d = vs.getD i (a.getD (ps.getD i 0) d)
  | p :: ps, [], a, i, _, _, _ => rfl
  | p :: ps, v :: vs, a, 0, hn, ha, _ => by
    rw [permute, List.getD_cons_zero, List.getD_cons_zero,
      permute_getD_of_notMem d (List.nodup_cons.1 hn).1]
    simp [ha p List.mem_cons_self]
  | p :: ps, v :: vs, a, i + 1, hn, ha, hi => by
    obtain ⟨hp, hn⟩ := List.nodup_cons.1 hn
    have hi : i < ps.length := Nat.lt_of_succ_lt_succ hi
    have hne : p ≠ ps.getD i 0 := fun h => hp (by simp [h, hi])
    have ha : ∀ q ∈ ps, q < (a.set p v).length := by
      rw [List.length_set]
      exact fun q hq => ha q (List.mem_cons_of_mem p hq)
    rw [permute, List.getD_cons_succ, List.getD_cons_succ, permute_getD d hn ha hi,
      getD_set_of_ne hne]

/-- Settles O22: `CL_PERM` names each of the 19 slots once, over an array of zeros. -/
theorem codeLengthLengthsPlaced : Obligations.CodeLengthLengthsPlaced := by
  intro s vs _
  refine ⟨_, rfl, rfl, ?_, fun i hi => ?_⟩
  · rw [permute_length, List.length_replicate]
  · have hplaced := permute_getD (ps := clPerm) (vs := vs) (a := List.replicate 19 0#3) 0#3
      (by decide) (by decide) hi
    rwa [List.getD_eq_getElem?_getD (l := List.replicate 19 _),
      List.getElem?_getD_replicate_default_eq] at hplaced

end Sys2Proof.Machine
end

section
/-! SUPPORT. The operand a LENGTH or a DIST element assembles, exact in the width of its register
(30_encoding.md R75; 43_lz77_symbols.md R141). -/

namespace Sys2Proof.Machine

/-- The length is exact in 9 bits and 3 to 258 (43_lz77_symbols.md R133). -/
theorem lengthOf_exact {i : Instr} {y x : Nat} (h : i.lengthParts = some (y, x)) :
    (lengthOf y x).toNat = entry lenBase (y - 257) + x ∧
      3 ≤ (lengthOf y x).toNat ∧ (lengthOf y x).toNat ≤ 258 := by
  obtain ⟨hy, -, hx⟩ := lengthElement_of_parts h
  obtain ⟨lo, hi⟩ := isLength_iff.1 hy
  have hfit : entry lenBase (y - 257) + 2 ^ entry lenExtra (y - 257) ≤ 512 := by
    interval_cases y <;> decide
  obtain ⟨hrange, -, -⟩ := Laws.operandRange i
  refine ⟨?_, hrange (y, x) h⟩
  rw [lengthOf, BitVec.toNat_ofNat, Nat.mod_eq_of_lt (by omega)]

/-- The distance is exact in 16 bits and 1 to 32768 (43_lz77_symbols.md R134). -/
theorem distOf_exact {i : Instr} {d y : Nat} (h : i.distParts = some (d, y)) :
    (distOf d y).toNat = entry distBase d + y ∧
      1 ≤ (distOf d y).toNat ∧ (distOf d y).toNat ≤ 32768 := by
  obtain ⟨hd, -, hy⟩ := distElement_of_parts h
  have hfit : entry distBase d + 2 ^ entry distExtra d ≤ 65536 := by
    interval_cases d <;> decide
  obtain ⟨-, hrange, -⟩ := Laws.operandRange i
  refine ⟨?_, hrange (d, y) h⟩
  rw [distOf, BitVec.toNat_ofNat, Nat.mod_eq_of_lt (by omega)]

/-- Settles O27: the meaning the LENGTH elements share, its operand exact. -/
theorem lengthElementsComplete : Obligations.LengthElementsComplete := by
  intro s i y x h
  obtain ⟨hy, -, -⟩ := lengthElement_of_parts h
  obtain ⟨-, hi⟩ := isLength_iff.1 hy
  refine ⟨_, exec_of_lengthParts h s, rfl, ?_, lengthOf_exact h⟩
  rw [State.takeLength_sym, BitVec.toNat_ofNat, Nat.mod_eq_of_lt (by omega)]

/-- Settles O28: the meaning the DIST elements share, its operand exact and within the output. -/
theorem distanceElementsComplete : Obligations.DistanceElementsComplete := by
  intro s i d y h hout
  obtain ⟨hd, -, -⟩ := distElement_of_parts h
  have hexact := distOf_exact h
  have hle : (distOf d y).toNat ≤ s.outLen := hexact.1.trans_le hout
  obtain ⟨hlt, -⟩ | ⟨-, ht⟩ := s.takeDist_cases d y
  · omega
  · refine ⟨_, (exec_of_distParts h s).trans (congrArg _ ht), rfl, ?_, hexact⟩
    rw [BitVec.toNat_ofNat, Nat.mod_eq_of_lt (by omega)]

end Sys2Proof.Machine
end

section
/-! SUPPORT. The step that runs a decoded element, and the steps of the rows that build trees. -/

namespace Sys2Proof.Machine

section
variable {s : State} {i : Instr} {r : Reader}

/-- An element fetched by the block is executed by the step. -/
theorem step_of_elem {s' : State} (hh : s.host = []) (h : fetchBlock s = .elem i s') :
    step s = exec i s' := by
  rw [step_of_host_nil hh, h]
  rfl

/-- A row of the block with a next state is the step. -/
theorem step_of_row {t : State} (hh : s.host = []) (h : fetchBlock s = .row (.next t)) :
    step s = .next t := by
  rw [step_of_host_nil hh, h]
  rfl

theorem fetchElem_of_ok {e : Expect} (hr : s.inReadable = true) (h : decode e s.reader = .ok i r) :
    fetchElem e s = .elem i (s.withReader r) := by
  rw [fetchElem, guardIn, if_pos hr, h]
  rfl

/-- SYM with a symbol that is an element by itself (43_lz77_symbols.md R130). -/
theorem fetchSymbol_of_ok (hr : s.inReadable = true) (h : decode (.llSym s.llt) s.reader = .ok i r)
    (hp : i.lengthParts = none) : fetchSymbol s = .elem i (s.withReader r) := by
  obtain ⟨sym, r1, hsym, helem⟩ := Read.bind_eq_ok h
  have hnot : ¬isLength sym.toNat = true := fun hy => by
    obtain ⟨x, hx⟩ := llElement_length hy helem
    cases hp.symm.trans hx
  simp only [fetchSymbol, guardIn, if_pos hr, hsym, if_neg hnot, helem]
  rfl

/-- SYM with a length symbol: its extra bits come next, with the cursor past its code
(43_lz77_symbols.md R133). -/
theorem fetchSymbol_of_length {y x : Nat} (hr : s.inReadable = true)
    (h : decode (.llSym s.llt) s.reader = .ok i r) (hp : i.lengthParts = some (y, x)) :
    ∃ r1, s.reader.Later r1 ∧ llElement y r1 = .ok i r ∧
      fetchSymbol s = .row (.next (rowLengthSymbol (BitVec.ofNat 9 y) (s.withReader r1))) := by
  obtain ⟨sym, r1, hsym, helem⟩ := Read.bind_eq_ok h
  have hlater := s.llt.decodeSymbol_later s.reader
  rw [hsym] at hlater
  cases hy : isLength sym.toNat with
  | false =>
    obtain ⟨_, rfl⟩ | rfl | rfl | rfl := llElement_other hy helem <;> cases hp
  | true =>
    obtain ⟨x', hx⟩ := llElement_length hy helem
    cases hp.symm.trans hx
    refine ⟨r1, hlater, helem, ?_⟩
    simp only [fetchSymbol, guardIn, if_pos hr, hsym, if_pos hy, BitVec.ofNat_toNat,
      BitVec.setWidth_eq]

/-- DIST_SYM with a symbol that is an element by itself (43_lz77_symbols.md R137). -/
theorem fetchDistSymbol_of_ok (hr : s.inReadable = true)
    (h : decode (.dSym s.dt) s.reader = .ok i r) (hp : i.distParts = none) :
    fetchDistSymbol s = .elem i (s.withReader r) := by
  obtain ⟨sym, r1, hsym, helem⟩ := Read.bind_eq_ok h
  have hnot : ¬sym.toNat ≤ 29 := fun hd => by
    obtain ⟨y, hy⟩ := dElement_dist hd helem
    cases hp.symm.trans hy
  simp only [fetchDistSymbol, guardIn, if_pos hr, hsym, if_neg hnot, helem]
  rfl

/-- DIST_SYM with a symbol of 0 to 29: its extra bits come next, with the cursor past its code
(43_lz77_symbols.md R134). -/
theorem fetchDistSymbol_of_dist {d y : Nat} (hr : s.inReadable = true)
    (h : decode (.dSym s.dt) s.reader = .ok i r) (hp : i.distParts = some (d, y)) :
    ∃ r1, s.reader.Later r1 ∧ dElement d r1 = .ok i r ∧
      fetchDistSymbol s =
        .row (.next { s.withReader r1 with dsym := BitVec.ofNat 5 d, state := .distX }) := by
  obtain ⟨sym, r1, hsym, helem⟩ := Read.bind_eq_ok h
  have hlater := s.dt.decodeSymbol_later s.reader
  rw [hsym] at hlater
  by_cases hd : sym.toNat ≤ 29
  · obtain ⟨y', hy⟩ := dElement_dist hd helem
    cases hp.symm.trans hy
    refine ⟨r1, hlater, helem, ?_⟩
    simp only [fetchDistSymbol, guardIn, if_pos hr, hsym, if_pos hd, rowDistSymbol,
      BitVec.ofNat_toNat]
  · obtain rfl | rfl := dElement_other hd helem <;> cases hp

/-- A length symbol takes two steps, its code in the first (42_block_state_machine.md R110). -/
theorem steps_of_length {y x : Nat} (hh : s.host = []) (hr : s.inReadable = true)
    (hst : s.state = .sym) (h : decode (.llSym s.llt) s.reader = .ok i r)
    (hp : i.lengthParts = some (y, x)) :
    ∃ u, step s = .next u ∧ u.state = .lenX ∧ u.sym = BitVec.ofNat 9 y ∧
      step u =
        exec i (({ s with state := .lenX, sym := BitVec.ofNat 9 y } : State).withReader r) := by
  obtain ⟨r1, hlater, helem, hfetch⟩ := fetchSymbol_of_length hr h hp
  refine ⟨_, step_of_row hh (by rw [fetchBlock, hst]; exact hfetch), rfl, rfl, ?_⟩
  have hread : (rowLengthSymbol (BitVec.ofNat 9 y) (s.withReader r1)).reader = r1 :=
    State.reader_withReader hlater.mem hlater.limit
  have hsym : (BitVec.ofNat 9 y).toNat = y := by
    obtain ⟨hy, -⟩ := lengthElement_of_parts hp
    obtain ⟨-, hi⟩ := isLength_iff.1 hy
    rw [BitVec.toNat_ofNat, Nat.mod_eq_of_lt (by omega)]
  refine step_of_elem hh (fetchElem_of_ok hr ?_)
  rw [hread]
  exact (congrArg (llElement · r1) hsym).trans helem

/-- A distance symbol takes two steps, its code in the first (42_block_state_machine.md R110). -/
theorem steps_of_dist {d y : Nat} (hh : s.host = []) (hr : s.inReadable = true)
    (hst : s.state = .distSym) (h : decode (.dSym s.dt) s.reader = .ok i r)
    (hp : i.distParts = some (d, y)) :
    ∃ u, step s = .next u ∧ u.state = .distX ∧ u.dsym = BitVec.ofNat 5 d ∧
      step u =
        exec i (({ s with state := .distX, dsym := BitVec.ofNat 5 d } : State).withReader r) := by
  obtain ⟨r1, hlater, helem, hfetch⟩ := fetchDistSymbol_of_dist hr h hp
  refine ⟨_, step_of_row hh (by rw [fetchBlock, hst]; exact hfetch), rfl, rfl, ?_⟩
  have hread :
      State.reader { s.withReader r1 with dsym := BitVec.ofNat 5 d, state := .distX } = r1 :=
    State.reader_withReader hlater.mem hlater.limit
  have hdsym : (BitVec.ofNat 5 d).toNat = d := by
    obtain ⟨hd, -⟩ := distElement_of_parts hp
    rw [BitVec.toNat_ofNat, Nat.mod_eq_of_lt (by omega)]
  refine step_of_elem hh (fetchElem_of_ok hr ?_)
  rw [hread]
  exact (congrArg (dElement · r1) hdsym).trans helem

/-- The envelope's three elements in ZHDR (44_stream_and_wrapper.md R150). -/
theorem step_of_zhdr (hh : s.host = []) (hst : s.state = .zhdr) :
    (s.part = .first → 2 ≤ s.inLen → s.inLen ≤ s.par.inCap →
      step s = exec (decodeEnvelope s.inMem) s) ∧
    (s.part = .second → step s = exec .dictid s) ∧
    (s.part = .third → step s = exec .adler s) := by
  refine ⟨fun hp hlo hhi => step_of_elem hh ?_, fun hp => step_of_elem hh ?_,
    fun hp => step_of_elem hh ?_⟩
  all_goals simp only [fetchBlock, hst, fetchEnvelope, hp]
  rw [if_neg (by omega), if_neg (by omega)]

end

/-- Settles O35: each row of R110 that builds is one step, and so is the end of the lengths. -/
theorem treesBuilt : Obligations.TreesBuilt := by
  intro s hh
  refine ⟨fun hst => ⟨rowFixedSetup s, step_of_row hh (by rw [fetchBlock, hst]), rfl⟩,
    fun hst => ⟨rowClTree s, step_of_row hh (by rw [fetchBlock, hst]), rfl⟩,
    fun hst hi => step_of_row hh ?_,
    fun hst => ⟨rowTrees s, step_of_row hh (by rw [fetchBlock, hst]), rfl⟩⟩
  rw [fetchBlock, hst]
  exact if_neg (Nat.not_lt.2 hi)

end Sys2Proof.Machine
end

section
/-! SUPPORT. The queue of the host plays no part in a step of the block itself
(notes/assumptions/3.md). -/

namespace Sys2Proof.Machine

/-- The same state with `ops` still to come from the host. -/
def State.withHost (ops : List HostOp) (s : State) : State := { s with host := ops }

/-- The same outcome with `ops` still to come from the host. -/
def outWithHost (ops : List HostOp) : Out → Out
  | .next t => .next (t.withHost ops)
  | .fault f => .fault f
  | .refused q => .refused q

/-- The same fetch with `ops` still to come from the host. -/
def Fetch.withHost (ops : List HostOp) : Fetch → Fetch
  | .elem i s => .elem i (s.withHost ops)
  | .row o => .row (outWithHost ops o)
  | .raised k s => .raised k (s.withHost ops)

section
variable {s : State} {i : Instr} (ops : List HostOp)

theorem ite_withHost (c : Prop) [Decidable c] (a b : State) :
    outWithHost ops (.next (if c then a else b)) =
      .next (if c then a.withHost ops else b.withHost ops) :=
  congrArg Host.Outcome.next (apply_ite (State.withHost ops) c a b)

theorem State.outAppend_withHost {v : Byte} {next : State → State}
    (h : ∀ s, next (s.withHost ops) = (next s).withHost ops) (s : State) :
    (s.withHost ops).outAppend v next = (s.outAppend v next).withHost ops := by
  obtain ⟨hfull, e⟩ | ⟨hfree, e⟩ := s.outAppend_cases v next
  · rw [e]
    exact if_pos hfull
  · rw [e, ← h]
    exact if_neg hfree

theorem State.repeatLen_withHost (v : BitVec 4) (n : BitVec 8) (s : State) :
    (s.withHost ops).repeatLen v n = (s.repeatLen v n).withHost ops := by
  obtain ⟨hover, e⟩ | ⟨hfit, e⟩ := s.repeatLen_cases v n
  · rw [e]
    exact if_pos hover
  · rw [e]
    exact if_neg (Nat.not_lt.2 hfit)

theorem State.takeDist_withHost (d y : Nat) (s : State) :
    (s.withHost ops).takeDist d y = (s.takeDist d y).withHost ops := by
  obtain ⟨hfar, e⟩ | ⟨hnear, e⟩ := s.takeDist_cases d y
  · rw [e]
    exact if_pos hfar
  · rw [e]
    exact if_neg (Nat.not_lt.2 hnear)

/-- An element of the stream neither reads nor writes the queue. -/
theorem exec_withHost (hr : Reads s i) :
    exec i (s.withHost ops) = outWithHost ops (exec i s) := by
  cases hr with
  | zhdr =>
    refine Eq.trans ?_ (ite_withHost ops (s.inLen < 2) _ _).symm
    rfl
  | dictid =>
    refine Eq.trans ?_ (ite_withHost ops (s.limit < s.byteCursor + 4) _ _).symm
    rfl
  | adler =>
    refine Eq.trans ?_ (ite_withHost ops (s.inLen < s.byteCursor + 4) _ _).symm
    rfl
  | @nlen16 n =>
    refine Eq.trans ?_ (ite_withHost ops (n ≠ s.stLen ^^^ 0xFFFF#16) _ _).symm
    rfl
  | byte =>
    exact congrArg Host.Outcome.next (State.outAppend_withHost ops
      (next := fun s => { s with stRem := s.stRem - 1#16 }) (fun _ => rfl) s)
  | @lit x =>
    exact congrArg Host.Outcome.next (State.outAppend_withHost ops (next := id) (fun _ => rfl)
      { s with sym := x.setWidth 9 })
  | @cl16 x =>
    have hrep := s.repeatLen_withHost ops s.prevLen (repOf 3 x.toNat)
    refine Eq.trans ?_ (ite_withHost ops (s.idx = 0#9) (s.raise .repeatWithoutPrevious) _).symm
    rw [← hrep]
    rfl
  | cl17 => exact congrArg Host.Outcome.next (s.repeatLen_withHost ops _ _)
  | cl18 => exact congrArg Host.Outcome.next (s.repeatLen_withHost ops _ _)
  | length _ hp => rw [exec_of_lengthParts hp, exec_of_lengthParts hp]; rfl
  | dist _ hp =>
    rw [exec_of_distParts hp, exec_of_distParts hp]
    exact congrArg Host.Outcome.next (s.takeDist_withHost ops _ _)
  | _ => rfl

theorem guardIn_withHost (s : State) (f : Fetch) :
    guardIn (s.withHost ops) (f.withHost ops) = (guardIn s f).withHost ops :=
  (apply_ite (Fetch.withHost ops) (s.inReadable = true) f (.row (.fault .inRead))).symm

theorem Fetch.ofRead_withHost (s : State) (x : Read Instr) :
    Fetch.ofRead (s.withHost ops) x = (Fetch.ofRead s x).withHost ops := by
  cases x <;> rfl

theorem fetchElem_withHost (e : Expect) (s : State) :
    fetchElem e (s.withHost ops) = (fetchElem e s).withHost ops :=
  (congrArg (guardIn _) (Fetch.ofRead_withHost ops s _)).trans (guardIn_withHost ops s _)

theorem fetchSymbol_withHost (s : State) :
    fetchSymbol (s.withHost ops) = (fetchSymbol s).withHost ops := by
  have hsame : (s.withHost ops).llt.decodeSymbol (s.withHost ops).reader =
      s.llt.decodeSymbol s.reader := rfl
  rw [fetchSymbol, fetchSymbol, hsame, ← guardIn_withHost]
  cases s.llt.decodeSymbol s.reader with
  | raise k r => rfl
  | ok sym r =>
    dsimp only
    by_cases hy : isLength sym.toNat = true
    · rw [if_pos hy, if_pos hy]
      rfl
    · rw [if_neg hy, if_neg hy, Fetch.ofRead_withHost]

theorem fetchDistSymbol_withHost (s : State) :
    fetchDistSymbol (s.withHost ops) = (fetchDistSymbol s).withHost ops := by
  have hsame : (s.withHost ops).dt.decodeSymbol (s.withHost ops).reader =
      s.dt.decodeSymbol s.reader := rfl
  rw [fetchDistSymbol, fetchDistSymbol, hsame, ← guardIn_withHost]
  cases s.dt.decodeSymbol s.reader with
  | raise k r => rfl
  | ok sym r =>
    dsimp only
    by_cases hd : sym.toNat ≤ 29
    · rw [if_pos hd, if_pos hd]
      rfl
    · rw [if_neg hd, if_neg hd, Fetch.ofRead_withHost]

theorem fetchEnvelope_withHost (s : State) :
    fetchEnvelope (s.withHost ops) = (fetchEnvelope s).withHost ops := by
  have hpart : (s.withHost ops).part = s.part := rfl
  unfold fetchEnvelope
  rw [hpart]
  cases s.part with
  | first =>
    refine Eq.trans ?_ (apply_ite (Fetch.withHost ops) (s.par.inCap < s.inLen) _ _).symm
    rw [apply_ite (Fetch.withHost ops)]
    rfl
  | second => rfl
  | third => rfl

theorem fetchStoredHeader_withHost (s : State) :
    fetchStoredHeader (s.withHost ops) = (fetchStoredHeader s).withHost ops := by
  have hpart : (s.withHost ops).part = s.part := rfl
  rw [fetchStoredHeader, fetchStoredHeader, hpart]
  cases s.part <;> exact fetchElem_withHost ops _ s

theorem fetchCounts_withHost (s : State) :
    fetchCounts (s.withHost ops) = (fetchCounts s).withHost ops := by
  have hpart : (s.withHost ops).part = s.part := rfl
  rw [fetchCounts, fetchCounts, hpart]
  cases s.part <;> exact fetchElem_withHost ops _ s

theorem rowCopy_withHost (s : State) : rowCopy (s.withHost ops) = outWithHost ops (rowCopy s) := by
  by_cases h0 : s.copyRem = 0#9
  · have e : rowCopy s = .next { s with state := .sym } := if_pos h0
    rw [e]
    exact if_pos h0
  by_cases hd : s.dist.toNat = 0 ∨ s.outLen < s.dist.toNat
  · have e : rowCopy s = .fault .outRead := (if_neg h0).trans (if_pos hd)
    rw [e]
    exact (if_neg h0).trans (if_pos hd)
  · refine Eq.trans ((if_neg h0).trans (if_neg hd)) ?_
    rw [rowCopy, if_neg h0, if_neg hd]
    exact congrArg Host.Outcome.next (State.outAppend_withHost ops
      (next := fun s => { s with copyRem := s.copyRem - 1#9 }) (fun _ => rfl) s)

theorem rowFixedSetup_withHost (s : State) :
    rowFixedSetup (s.withHost ops) = (rowFixedSetup s).withHost ops := by
  simp only [rowFixedSetup, State.withHost, State.withScratch]

/-- The block's own step does not look at the queue. -/
theorem fetchBlock_withHost (s : State) :
    fetchBlock (s.withHost ops) = (fetchBlock s).withHost ops := by
  have hstate : (s.withHost ops).state = s.state := rfl
  unfold fetchBlock
  rw [hstate]
  cases s.state with
  | zhdr => exact fetchEnvelope_withHost ops s
  | blkHdr =>
    refine Eq.trans ?_ (apply_ite (Fetch.withHost ops) (s.blocks = s.par.blockCap) _ _).symm
    rw [← fetchElem_withHost]
    rfl
  | stHdr => exact fetchStoredHeader_withHost ops s
  | stCopy =>
    refine Eq.trans ?_ (apply_ite (Fetch.withHost ops) (s.stRem = 0#16) _ _).symm
    rw [← fetchElem_withHost]
    rfl
  | dyCounts => exact fetchCounts_withHost ops s
  | fxSetup => exact congrArg (Fetch.row <| Host.Outcome.next ·) (rowFixedSetup_withHost ops s)
  | dyClen => exact fetchElem_withHost ops _ s
  | dyLens =>
    refine Eq.trans ?_ (apply_ite (Fetch.withHost ops) (s.idx.toNat < s.total.toNat) _ _).symm
    rw [← fetchElem_withHost]
    rfl
  | sym => exact fetchSymbol_withHost ops s
  | lenX => exact fetchElem_withHost ops _ s
  | distSym => exact fetchDistSymbol_withHost ops s
  | distX => exact fetchElem_withHost ops _ s
  | copy => exact congrArg Fetch.row (rowCopy_withHost ops s)
  | _ => rfl

/-- Nor does its outcome. -/
theorem outcome_withHost (s : State) :
    (fetchBlock (s.withHost ops)).outcome = outWithHost ops (fetchBlock s).outcome := by
  rw [fetchBlock_withHost]
  cases e : fetchBlock s with
  | elem i s' =>
    obtain ⟨r, -, rfl⟩ := fetchBlock_elem e
    exact exec_withHost ops ((fetchBlock_reads e).withReader r)
  | row o => rfl
  | raised k s' => rfl

end

/-- With `run` at the head the step is the block's own, the rest of the queue kept. -/
theorem step_of_run {s : State} {ops : List HostOp} (h : s.host = .run :: ops) :
    step s = outWithHost ops (step { s with host := [] }) := by
  rw [step_of_host_cons h, step_of_host_nil (s := { s with host := [] }) rfl, ← outcome_withHost]
  rfl

/-- Settles O4: the element decoded is the one fetched, row by row of R110; a host access is taken
from the head of the queue, `run` leaving the step to the block. -/
theorem stepRunsDecodedInstruction : Obligations.StepRunsDecodedInstruction := by
  refine ⟨fun s e i r hh hr hd he => step_of_elem hh ?_,
    fun s i r y x hh hr hst hd hp => steps_of_length hh hr hst hd hp,
    fun s i r d y hh hr hst hd hp => steps_of_dist hh hr hst hd hp,
    fun s hh hst => step_of_zhdr hh hst, fun s v ops i hh hi => ?_, fun s ops hh => ?_,
    fun s ops hh => ?_⟩
  · have helem := fetchElem_of_ok hr hd
    rw [fetchBlock]
    obtain ⟨hst, hc, rfl⟩ | ⟨hst, hp, rfl⟩ | ⟨hst, hp, rfl⟩ | ⟨hst, hp, rfl⟩ | ⟨hst, hc, rfl⟩ |
      ⟨hst, hp, rfl⟩ | ⟨hst, hp, rfl⟩ | ⟨hst, hp, rfl⟩ | ⟨hst, rfl⟩ | ⟨hst, hi, rfl⟩ |
      ⟨hst, hp, rfl⟩ | ⟨hst, rfl⟩ | ⟨hst, hp, rfl⟩ | ⟨hst, rfl⟩ := he <;> rw [hst]
    · exact (if_neg hc).trans helem
    · rw [fetchStoredHeader, hp, helem]
    · rw [fetchStoredHeader, hp, helem]
    · rw [fetchStoredHeader, hp, helem]
    · exact (if_neg hc).trans helem
    · rw [fetchCounts, hp, helem]
    · rw [fetchCounts, hp, helem]
    · rw [fetchCounts, hp, helem]
    · exact helem
    · exact (if_pos hi).trans helem
    · exact fetchSymbol_of_ok hr hd hp
    · exact helem
    · exact fetchDistSymbol_of_ok hr hd hp
    · exact helem
  · rw [step_of_host_cons hh, fetchHost_start _ hi]
    rfl
  · rw [step_of_host_cons hh]
    rfl
  · rw [step_of_run hh]
    exact ⟨fun t ht => congrArg (outWithHost ops) ht, fun f hf => congrArg (outWithHost ops) hf,
      fun q hq => congrArg (outWithHost ops) hq⟩

end Sys2Proof.Machine
end

section
/-! SUPPORT. What the reads of the Bit Reader give and where they leave the cursor, from the number of
bits or of whole bytes that are left (40_bit_reader.md R91 to R98). -/

namespace Sys2Proof

/-- The read raises the error kind `k`, wherever it leaves the cursor. -/
def Read.Raises {α : Type} (x : Read α) (k : ErrKind) : Prop := ∃ r, x = .raise k r

theorem Read.Raises.bind {α β : Type} {x : Read α} {k : ErrKind} (h : x.Raises k)
    (f : α → Reader → Read β) : (x.bind f).Raises k := by
  obtain ⟨r, rfl⟩ := h
  exact ⟨r, rfl⟩

/-- A fault of the second of two reads is one of both. -/
theorem Read.Gives.bind_raises {α β : Type} {x : Read α} {f : α → Reader → Read β} {r : Reader}
    {a : α} {w : List Bool} {k : ErrKind} (hx : x.Gives r a w)
    (hf : ∀ r', r'.unread = w → (f a r').Raises k) : (x.bind f).Raises k := by
  obtain ⟨r', rfl, hw, -, -⟩ := hx
  exact hf r' hw

namespace Reader

/-! Bits. -/

theorem unread_length_lt_iff {r : Reader} {n : Nat} (h : r.wf) :
    r.unread.length < n ↔ r.endPos < r.pos + n := by
  have hle : r.pos ≤ r.endPos := pos_le_of_wf h
  rw [unread_length]; omega

theorem nextBit_underrun_of_unread {r : Reader} (h : r.unread = []) :
    r.nextBit = .raise .inputUnderrun r := by
  have hlen := r.unread_length
  have hlt := r.bitCursor_lt
  rw [h, List.length_nil, endPos, pos] at hlen
  exact nextBit_underrun (by omega)

/-- `next_bits(n)` where `n` bits are left (40_bit_reader.md R92, R98). -/
theorem nextBits_ok : ∀ {n : Nat} {r : Reader}, r.pos + n ≤ r.endPos →
    ∃ r', r.nextBits n = .ok (∑ i ∈ Finset.range n, (r.bitAt (r.pos + i)).toNat * 2 ^ i) r' ∧
      r'.pos = r.pos + n ∧ r'.mem = r.mem ∧ r'.limit = r.limit
  | 0, r, _ => ⟨r, rfl, rfl, rfl, rfl⟩
  | n + 1, r, h => by
    obtain ⟨r₁, h₁, hp₁, hm₁, hl₁, -⟩ :=
      nextBit_ok (r := r) (by rw [endPos, pos] at h; omega)
    obtain ⟨r₂, h₂, hp₂, hm₂, hl₂⟩ := nextBits_ok (n := n) (r := r₁) (by
      rw [hp₁, endPos, hl₁, ← endPos]; omega)
    refine ⟨r₂, ?_, by omega, hm₂.trans hm₁, hl₂.trans hl₁⟩
    have hsum : ∑ i ∈ Finset.range (n + 1), (r.bitAt (r.pos + i)).toNat * 2 ^ i =
        (r.bitAt r.pos).toNat +
          2 * ∑ i ∈ Finset.range n, (r₁.bitAt (r₁.pos + i)).toNat * 2 ^ i := by
      rw [Finset.sum_range_succ', Nat.add_comm, Finset.mul_sum, bitAt_congr hm₁, hp₁]
      congr 1
      · simp
      · exact Finset.sum_congr rfl fun i _ => by rw [pow_succ', Nat.mul_left_comm]; congr 4; omega
    rw [nextBits, h₁, Read.bind_ok, h₂, hsum]
    rfl

/-- `next_bits(n)` where fewer than `n` bits are left (40_bit_reader.md R97). -/
theorem nextBits_underrun : ∀ {n : Nat} {r : Reader}, r.unread.length < n →
    (r.nextBits n).Raises .inputUnderrun
  | n + 1, r, h => by
    cases hu : r.unread with
    | nil => exact Read.Raises.bind ⟨r, nextBit_underrun_of_unread hu⟩ _
    | cons b w =>
      rw [hu, List.length_cons] at h
      exact (nextBit_gives hu).bind_raises fun r' hr' =>
        (nextBits_underrun (hr' ▸ Nat.lt_of_succ_lt_succ h)).bind _

/-! Whole bytes. -/

/-- The reader with its cursor at the start of byte `c`. -/
def atByte (r : Reader) (c : Nat) : Reader := { r with byteCursor := c, bitCursor := 0#3 }

@[simp] theorem atByte_mem (r : Reader) (c : Nat) : (r.atByte c).mem = r.mem := rfl
@[simp] theorem atByte_limit (r : Reader) (c : Nat) : (r.atByte c).limit = r.limit := rfl
@[simp] theorem atByte_byteCursor (r : Reader) (c : Nat) : (r.atByte c).byteCursor = c := rfl
@[simp] theorem atByte_bitCursor (r : Reader) (c : Nat) : (r.atByte c).bitCursor = 0#3 := rfl
@[simp] theorem atByte_pos (r : Reader) (c : Nat) : (r.atByte c).pos = 8 * c := rfl

/-- `align` goes to the next byte boundary at or behind the cursor (40_bit_reader.md R93, R98). -/
theorem align_eq (r : Reader) : r.align = r.atByte ((r.pos + 7) / 8) := by
  have hlt := r.bitCursor_lt
  by_cases h0 : r.bitCursor = 0#3
  · have hc : (r.pos + 7) / 8 = r.byteCursor := by rw [pos, h0, BitVec.toNat_zero]; omega
    rw [align_of_aligned h0, hc, atByte, ← h0]
  · have hne : r.bitCursor.toNat ≠ 0 := fun h => h0 (BitVec.eq_of_toNat_eq h)
    have hc : (r.pos + 7) / 8 = r.byteCursor + 1 := by rw [pos]; omega
    rw [align, if_neg h0, hc, atByte]

theorem align_byteCursor_le {r : Reader} (h : r.wf) : r.align.byteCursor ≤ r.limit :=
  r.align_later.limit ▸ (r.align_later.wf h).1

theorem nextByte_align (r : Reader) : r.align.nextByte = r.nextByte := by
  rw [nextByte, nextByte, align_align]

/-- `next_byte` at a byte boundary of the window (40_bit_reader.md R94). -/
theorem nextByte_atByte {r : Reader} {c : Nat} (h : c < r.limit) :
    (r.atByte c).nextByte = .ok (r.mem.read c) (r.atByte (c + 1)) := by
  rw [nextByte, align_of_aligned (r.atByte_bitCursor c)]
  exact if_neg (Nat.not_le.2 h)

/-- `next_byte` at the end of the window (40_bit_reader.md R97). -/
theorem nextByte_atByte_underrun {r : Reader} {c : Nat} (h : r.limit ≤ c) :
    (r.atByte c).nextByte.Raises .inputUnderrun := by
  rw [nextByte, align_of_aligned (r.atByte_bitCursor c)]
  exact ⟨_, if_pos h⟩

theorem nextByte_ok {r : Reader} (h : (r.pos + 7) / 8 < r.limit) :
    r.nextByte = .ok (r.mem.read ((r.pos + 7) / 8)) (r.atByte ((r.pos + 7) / 8 + 1)) := by
  rw [← nextByte_align, align_eq, nextByte_atByte h]

theorem nextByte_underrun {r : Reader} (h : r.limit ≤ (r.pos + 7) / 8) :
    r.nextByte.Raises .inputUnderrun := by
  rw [← nextByte_align, align_eq]
  exact nextByte_atByte_underrun h

/-- `next_bytes_as_number` starts at the next byte boundary (40_bit_reader.md R95). -/
theorem nextBytesAsNumber_align {n : Nat} (r : Reader) (h : 1 ≤ n) :
    r.align.nextBytesAsNumber n = r.nextBytesAsNumber n := by
  obtain ⟨n, rfl⟩ := Nat.exists_eq_add_of_le' h
  rw [nextBytesAsNumber, nextBytesAsNumber, nextByte_align]

/-- `next_bytes_as_slice` starts at the next byte boundary (40_bit_reader.md R96). -/
theorem nextBytesAsSlice_align (r : Reader) : ∀ n,
    r.align.nextBytesAsSlice n = r.nextBytesAsSlice n
  | 0 => by rw [nextBytesAsSlice, nextBytesAsSlice, align_align]
  | n + 1 => by rw [nextBytesAsSlice, nextBytesAsSlice, nextByte_align]

/-- Little-endian: the first byte is the least significant (40_bit_reader.md R95). -/
theorem nextBytesAsNumber_atByte {r : Reader} : ∀ {n c : Nat}, c + n ≤ r.limit →
    (r.atByte c).nextBytesAsNumber n =
      .ok (∑ i ∈ Finset.range n, (r.mem.read (c + i)).toNat * 256 ^ i) (r.atByte (c + n))
  | 0, _, _ => rfl
  | n + 1, c, h => by
    have hsum : ∑ i ∈ Finset.range (n + 1), (r.mem.read (c + i)).toNat * 256 ^ i =
        (r.mem.read c).toNat +
          256 * ∑ i ∈ Finset.range n, (r.mem.read (c + 1 + i)).toNat * 256 ^ i := by
      rw [Finset.sum_range_succ', Nat.add_comm, Finset.mul_sum]
      congr 1
      · simp
      · exact Finset.sum_congr rfl fun i _ => by
          rw [pow_succ', Nat.mul_left_comm, Nat.add_assoc, Nat.add_comm i]
    rw [nextBytesAsNumber, nextByte_atByte (by omega), Read.bind_ok,
      nextBytesAsNumber_atByte (by omega), hsum, Nat.add_assoc, Nat.add_comm 1]
    rfl

/-- The bytes in order (40_bit_reader.md R96). -/
theorem nextBytesAsSlice_atByte {r : Reader} : ∀ {n c : Nat}, c + n ≤ r.limit →
    (r.atByte c).nextBytesAsSlice n =
      .ok ((List.range n).map fun i => r.mem.read (c + i)) (r.atByte (c + n))
  | 0, c, _ => congrArg _ (align_of_aligned (r.atByte_bitCursor c))
  | n + 1, c, h => by
    rw [nextBytesAsSlice, nextByte_atByte (by omega), Read.bind_ok,
      nextBytesAsSlice_atByte (by omega), Nat.add_assoc, Nat.add_comm 1, List.range_succ_eq_map,
      List.map_cons, List.map_map]
    simp [Function.comp_def, Nat.add_assoc, Nat.add_comm 1]

theorem nextBytesAsNumber_atByte_underrun {r : Reader} : ∀ {n c : Nat}, r.limit - c < n →
    ((r.atByte c).nextBytesAsNumber n).Raises .inputUnderrun
  | n + 1, c, h => by
    by_cases hc : c < r.limit
    · rw [nextBytesAsNumber, nextByte_atByte hc]
      exact (nextBytesAsNumber_atByte_underrun (by omega)).bind _
    · exact (nextByte_atByte_underrun (Nat.not_lt.1 hc)).bind _

theorem nextBytesAsSlice_atByte_underrun {r : Reader} : ∀ {n c : Nat}, r.limit - c < n →
    ((r.atByte c).nextBytesAsSlice n).Raises .inputUnderrun
  | n + 1, c, h => by
    by_cases hc : c < r.limit
    · rw [nextBytesAsSlice, nextByte_atByte hc]
      exact (nextBytesAsSlice_atByte_underrun (by omega)).bind _
    · exact (nextByte_atByte_underrun (Nat.not_lt.1 hc)).bind _

/-- A number that does not fit in the window (40_bit_reader.md R97). -/
theorem nextBytesAsNumber_underrun {r : Reader} {n : Nat} (hn : 1 ≤ n)
    (h : r.limit < (r.pos + 7) / 8 + n) : (r.nextBytesAsNumber n).Raises .inputUnderrun := by
  rw [← nextBytesAsNumber_align r hn, align_eq]
  exact nextBytesAsNumber_atByte_underrun (by omega)

end Reader

/-- Settles O5: each read by what it gives where it fits, and by its fault where it does not. -/
theorem positionArithmetic : Obligations.PositionArithmetic := by
  intro r hwf
  refine ⟨fun h => ?_, fun h => Reader.nextBit_underrun ?_, fun n => Reader.nextBits_ok,
    fun n h => Reader.nextBits_underrun ((Reader.unread_length_lt_iff hwf).2 h), ?_, fun h => ?_,
    fun h => Reader.nextByte_underrun ?_⟩
  · obtain ⟨r', he, hp, hm, hl, -⟩ :=
      Reader.nextBit_ok (r := r) (by rw [Reader.pos, Reader.endPos] at h; omega)
    exact ⟨r', he, hp, hm, hl⟩
  · have hlt := r.bitCursor_lt
    rw [Reader.pos, Reader.endPos] at h; omega
  · rw [Reader.align_eq, Reader.atByte_pos]
  · exact ⟨_, Reader.nextByte_ok (by rw [Reader.endPos] at h; omega), rfl, rfl, rfl⟩
  · rw [Reader.endPos] at h; omega

/-- Settles O6: the two branches of `align`; the invariant of 10_state.md R11 keeps it in the
window. -/
theorem alignToByteBoundary : Obligations.AlignToByteBoundary := fun _ =>
  ⟨Reader.align_of_aligned, fun h => if_neg h, Reader.align_byteCursor_le⟩

/-- Settles O7: both reads start at the next byte boundary, and go on from byte to byte. -/
theorem byteAlignedReads : Obligations.ByteAlignedReads := by
  intro r n hwf hn
  rw [← r.nextBytesAsNumber_align hn, ← r.nextBytesAsSlice_align n, r.align_eq]
  have hle : (r.pos + 7) / 8 ≤ r.limit := by
    rw [← r.atByte_byteCursor ((r.pos + 7) / 8), ← r.align_eq]
    exact Reader.align_byteCursor_le hwf
  refine ⟨fun h => ⟨?_, ?_⟩, fun h => ⟨?_, ?_⟩, rfl, by rw [← r.align_eq]; rfl⟩
  · exact ⟨_, Reader.nextBytesAsNumber_atByte h, rfl, rfl, rfl, rfl⟩
  · exact ⟨_, Reader.nextBytesAsSlice_atByte h, rfl, rfl, rfl, rfl⟩
  · exact Reader.nextBytesAsNumber_atByte_underrun (by omega)
  · exact Reader.nextBytesAsSlice_atByte_underrun (by omega)

end Sys2Proof
end

section
/-! SUPPORT. The body of a stored block as a run of the machine (42_block_state_machine.md R113). -/

namespace Sys2Proof.Machine

/-- One step after a run. -/
theorem run_step {u v : State} (hv : step u = .next v) : ∀ {k : Nat} {s : State},
    core.run k s = .next u → core.run (k + 1) s = .next v
  | 0, s, h => by cases h; exact run_one hv
  | k + 1, s, h => by
    cases hs : step s with
    | next s' =>
      rw [run_succ hs] at h ⊢
      exact run_step hv h
    | fault f => simp only [Host.Core.run, show core.step s = .fault f from hs] at h; cases h
    | refused q => simp only [Host.Core.run, show core.step s = .refused q from hs] at h; cases h

/-- The state after `k` bytes of the body. -/
def State.afterBytes (s : State) (k : Nat) : State :=
  { s with
    byteCursor := s.byteCursor + k, stRem := s.stRem - BitVec.ofNat 16 k, outLen := s.outLen + k,
    outMem := s.outMem.load s.outLen ((List.range' s.byteCursor k).map s.inMem.read) }

theorem State.afterBytes_zero (s : State) : s.afterBytes 0 = s := by
  simp [State.afterBytes, Mem.load]

theorem State.afterBytes_succ (s : State) (k : Nat) :
    (s.afterBytes 1).afterBytes k = s.afterBytes (k + 1) := by
  have hrem : s.stRem - 1#16 - BitVec.ofNat 16 k = s.stRem - BitVec.ofNat 16 (k + 1) := by
    rw [BitVec.ofNat_add]; ring
  simp [State.afterBytes, Mem.load, hrem, List.range'_succ, Nat.add_assoc, Nat.add_comm 1]

/-- `k` bytes of the body are at hand, and there is room for them in the output. -/
structure State.HasBody (s : State) (k : Nat) : Prop where
  state : s.state = .stCopy
  host : s.host = []
  inReadable : s.inReadable = true
  aligned : s.bitCursor = 0#3
  rem : k ≤ s.stRem.toNat
  input : s.byteCursor + k ≤ s.limit
  room : s.outLen + k ≤ s.par.outCap

theorem State.HasBody.afterBytes {s : State} {k : Nat} (h : s.HasBody (k + 1)) :
    (s.afterBytes 1).HasBody k := by
  obtain ⟨hst, hh, hr, h0, hrem, hin, hroom⟩ := h
  refine ⟨hst, hh, hr, h0, ?_, ?_, ?_⟩ <;> dsimp only [State.afterBytes]
  · rw [BitVec.toNat_sub_of_le (by simp [BitVec.le_def]; omega)]
    simp; omega
  · omega
  · omega

/-- ST_COPY with a byte left reads it (42_block_state_machine.md R110). -/
theorem fetchBlock_of_stCopy {s : State} (hst : s.state = .stCopy)
    (hrem : s.stRem ≠ 0#16) : fetchBlock s = fetchElem .byte s := by
  rw [fetchBlock, hst]
  exact if_neg hrem

/-- A byte of the body is read at the cursor and appended (42_block_state_machine.md R113). -/
theorem step_storedByte {s : State} {k : Nat} (h : s.HasBody (k + 1)) :
    step s = .next (s.afterBytes 1) := by
  obtain ⟨hst, hh, hr, h0, hrem, hin, hroom⟩ := h
  have hne : s.stRem ≠ 0#16 := fun h => by rw [h] at hrem; cases hrem
  have hreader : s.reader = s.reader.atByte s.byteCursor := by
    rw [Reader.atByte, ← h0]; rfl
  have hdecode : decode .byte s.reader =
      .ok (.byte (s.inMem.read s.byteCursor)) (s.reader.atByte (s.byteCursor + 1)) := by
    rw [hreader, decode, Reader.nextByte_atByte (show s.byteCursor < s.limit by omega)]
    rfl
  have hfetch : fetchBlock s = .elem (.byte (s.inMem.read s.byteCursor))
      (s.withReader (s.reader.atByte (s.byteCursor + 1))) := by
    rw [fetchBlock_of_stCopy hst hne, fetchElem_of_ok hr hdecode]
  rw [step_of_elem hh hfetch]
  obtain ⟨hfull, -⟩ | ⟨-, happ⟩ :=
    (s.withReader (s.reader.atByte (s.byteCursor + 1))).outAppend_cases
      (s.inMem.read s.byteCursor) fun s => { s with stRem := s.stRem - 1#16 }
  · have : s.outLen = s.par.outCap := hfull
    omega
  · refine congrArg Host.Outcome.next (happ.trans ?_)
    simp [State.withReader, State.afterBytes, Mem.load, h0]

/-- The bytes of the body, one step each. -/
theorem run_storedBytes : ∀ {k : Nat} {s : State}, s.HasBody k →
    core.run k s = .next (s.afterBytes k)
  | 0, s, _ => by rw [s.afterBytes_zero]; rfl
  | k + 1, s, h => by
    rw [run_succ (step_storedByte h), run_storedBytes h.afterBytes, s.afterBytes_succ]

/-- ST_COPY with no byte left: the block ends (42_block_state_machine.md R110). -/
theorem step_storedEnd {s : State} (hst : s.state = .stCopy) (hh : s.host = [])
    (hrem : s.stRem = 0#16) : step s = .next { s with state := .blkEnd } := by
  refine step_of_row hh ?_
  rw [fetchBlock, hst]
  exact if_pos hrem

/-- The whole body is in the output, and nothing below it has changed. -/
theorem State.afterBytes_read {s : State} (k a : Nat) (hwf : s.outMem.wf = true) :
    (s.afterBytes k).outMem.read a =
      if s.outLen ≤ a ∧ a < s.outLen + k then s.inMem.read (s.byteCursor + (a - s.outLen))
      else s.outMem.read a := by
  rw [State.afterBytes, Mem.read_load a s.outLen _ hwf, List.length_map, List.length_range']
  refine if_ctx_congr Iff.rfl (fun h => ?_) fun _ => rfl
  simp [show a - s.outLen < k by omega]

/-- Settles O38: the run of the body by its bytes, what it leaves in the output by what a load reads
as; then the step with no byte left. -/
theorem storedBodyCopied : Obligations.StoredBodyCopied := by
  intro s hst hh
  refine ⟨step_storedEnd hst hh, fun hwf hr h0 hin hroom => ?_⟩
  have hrem : (s.afterBytes s.stRem.toNat).stRem = 0#16 := by simp [State.afterBytes]
  have hrun := run_storedBytes ⟨hst, hh, hr, h0, le_rfl, hin, hroom⟩
  refine ⟨_, hrun, by rw [← hrem]; rfl, fun k hk => ?_, fun a ha => ?_,
    run_step (step_storedEnd (s := s.afterBytes s.stRem.toNat) hst hh hrem) hrun⟩
  · rw [State.afterBytes_read _ _ hwf, if_pos (by omega), Nat.add_sub_cancel_left]
  · rw [State.afterBytes_read _ _ hwf, if_neg (by omega)]

end Sys2Proof.Machine
end

section
/-! SUPPORT. A read that does not fit in the window, as a step of the block (40_bit_reader.md R97). -/

namespace Sys2Proof

/-- A walk that meets no leaf in the unread part is TreeError (41_huffman_decoder.md R105). -/
theorem Tree.arrive_raises : ∀ {t : Tree} {r : Reader}, t.follow r.unread = none →
    (t.arrive r).Raises .treeError
  | .nil, r, _ => ⟨r, rfl⟩
  | .node (some _) _ _, _, h => by cases h
  | .node none c0 c1, r, h => by
    cases hu : r.unread with
    | nil =>
      rw [arrive, Reader.nextBit_underrun_of_unread hu]
      exact ⟨r, rfl⟩
    | cons b u =>
      rw [hu] at h
      obtain ⟨r', he, hr', -, -⟩ := Reader.nextBit_gives hu
      rw [arrive, he]
      cases b
      · exact arrive_raises (t := c0) (hr' ▸ h)
      · exact arrive_raises (t := c1) (hr' ▸ h)

theorem Tree.decodeSymbol_raises {t : Tree} {r : Reader} (h : t.walk r.unread = none) :
    (t.decodeSymbol r).Raises .treeError :=
  arrive_raises (walk_eq_follow t _ ▸ h)

/-! The raw fields (20_memory.md R47). -/

theorem rawField_underrun {n : Nat} {f : Nat → Instr} {r : Reader} (h : r.unread.length < n) :
    (rawField n f r).Raises .inputUnderrun := (Reader.nextBits_underrun h).bind _

/-- The code-length lengths, of 3 bits each (30_encoding.md R67). -/
theorem decodeClLens_underrun : ∀ {n : Nat} {r : Reader}, r.unread.length < 3 * n →
    (decodeClLens n r).Raises .inputUnderrun
  | n + 1, r, h => by
    by_cases h3 : r.unread.length < 3
    · exact (Reader.nextBits_underrun h3).bind _
    · have hlen := r.unread_length
      obtain ⟨r', he, hp, hm, hl⟩ :=
        Reader.nextBits_ok (n := 3) (r := r) (by omega)
      rw [decodeClLens, he]
      refine (decodeClLens_underrun ?_).bind _
      rw [Reader.unread_drop hm hl hp, List.length_drop]
      omega

theorem llElement_underrun {y : Nat} {r : Reader} (hy : isLength y = true)
    (h : r.unread.length < entry lenExtra (y - 257)) : (llElement y r).Raises .inputUnderrun := by
  rw [llElement_of_isLength hy]
  exact rawField_underrun h

theorem dElement_underrun {d : Nat} {r : Reader} (hd : d ≤ 29)
    (h : r.unread.length < entry distExtra d) : (dElement d r).Raises .inputUnderrun := by
  rw [dElement, if_pos hd]
  exact rawField_underrun h

/-- The extra bits of a repeat, its code read already (42_block_state_machine.md R120 to R122). -/
theorem clElement_underrun {first : Bool} {y : BitVec 9} {r : Reader} {n : Nat}
    (hy : y = 16#9 ∧ first = false ∧ n = 2 ∨ y = 17#9 ∧ n = 3 ∨ y = 18#9 ∧ n = 7)
    (h : r.unread.length < n) : (clElement first y r).Raises .inputUnderrun := by
  obtain ⟨rfl, rfl, rfl⟩ | ⟨rfl, rfl⟩ | ⟨rfl, rfl⟩ := hy
  · exact rawField_underrun h
  · exact rawField_underrun h
  · exact rawField_underrun h

namespace Machine

section
variable {s : State} {k : ErrKind}

/-- The next step takes the fault `k` (60_exceptions.md R163). -/
def State.Faults (s : State) (k : ErrKind) : Prop :=
  ∃ t, step s = .next t ∧ t.state = .error ∧ t.err = errCode k

theorem faults_of_raised {s' : State} (hh : s.host = []) (h : fetchBlock s = .raised k s') :
    s.Faults k :=
  ⟨s'.raise k, by rw [step_of_host_nil hh, h]; rfl, rfl, rfl⟩

/-- An element whose decoding raises is a fault of the step. -/
theorem faults_of_decode {e : Expect} (hh : s.host = []) (hr : s.inReadable = true)
    (hf : fetchBlock s = fetchElem e s) (h : (decode e s.reader).Raises k) : s.Faults k := by
  obtain ⟨r, he⟩ := h
  refine faults_of_raised (s' := s.withReader r) hh ?_
  rw [hf, fetchElem, guardIn, if_pos hr, he]
  rfl

theorem faults_of_symbol (hh : s.host = []) (hr : s.inReadable = true) (hst : s.state = .sym)
    (h : (s.llt.decodeSymbol s.reader).Raises k) : s.Faults k := by
  obtain ⟨r, he⟩ := h
  refine faults_of_raised (s' := s.withReader r) hh ?_
  rw [fetchBlock, hst]
  simp only [fetchSymbol, guardIn, if_pos hr, he]

theorem faults_of_distSymbol (hh : s.host = []) (hr : s.inReadable = true)
    (hst : s.state = .distSym) (h : (s.dt.decodeSymbol s.reader).Raises k) : s.Faults k := by
  obtain ⟨r, he⟩ := h
  refine faults_of_raised (s' := s.withReader r) hh ?_
  rw [fetchBlock, hst]
  simp only [fetchDistSymbol, guardIn, if_pos hr, he]

theorem fetchBlock_of_dyLens (hst : s.state = .dyLens) (hi : s.idx.toNat < s.total.toNat) :
    fetchBlock s = fetchElem (.clSym s.clt (s.idx == 0#9)) s := by
  rw [fetchBlock, hst]
  exact if_pos hi

end

/-- Settles O39: what each state decodes at the cursor raises, and the step takes the fault. -/
theorem truncationFaults : Obligations.TruncationFaults := by
  intro s hh hr hwf
  refine ⟨fun h => ?_, fun n hlt h => ?_,
    fun n (hlt : s.reader.limit < (s.reader.pos + 7) / 8 + n) h => ?_, fun n w hst hi h hlt => ?_⟩
  · change s.Faults .treeError
    obtain ⟨hst, hw⟩ | ⟨hst, hw⟩ | ⟨hst, hi, hw⟩ := h
    · exact faults_of_symbol hh hr hst (Tree.decodeSymbol_raises hw)
    · exact faults_of_distSymbol hh hr hst (Tree.decodeSymbol_raises hw)
    · exact faults_of_decode hh hr (fetchBlock_of_dyLens hst hi)
        ((Tree.decodeSymbol_raises hw).bind _)
  · change s.Faults .inputUnderrun
    have hn : s.reader.unread.length < n := (Reader.unread_length_lt_iff hwf).2 hlt
    obtain ⟨hst, hp, rfl⟩ | ⟨hst, hp, rfl⟩ | ⟨hst, hp, rfl⟩ | ⟨hst, rfl⟩ | ⟨hst, hlo, hhi, hx⟩ |
      ⟨hst, hd, rfl⟩ := h
    · exact faults_of_decode (e := .hlit) hh hr (by rw [fetchBlock, hst, fetchCounts, hp])
        (rawField_underrun hn)
    · exact faults_of_decode (e := .hdist) hh hr (by rw [fetchBlock, hst, fetchCounts, hp])
        (rawField_underrun hn)
    · exact faults_of_decode (e := .hclen) hh hr (by rw [fetchBlock, hst, fetchCounts, hp])
        (rawField_underrun hn)
    · exact faults_of_decode (e := .cllen _) hh hr (by rw [fetchBlock, hst])
        ((decodeClLens_underrun hn).bind _)
    · exact faults_of_decode (e := .lenX _) hh hr (by rw [fetchBlock, hst])
        (llElement_underrun (isLength_iff.2 ⟨hlo, hhi⟩) (hx ▸ hn))
    · exact faults_of_decode (e := .distX _) hh hr (by rw [fetchBlock, hst])
        (dElement_underrun hd hn)
  · change s.Faults .inputUnderrun
    obtain ⟨hst, hp, rfl⟩ | ⟨hst, hp, rfl⟩ | ⟨hst, hrem, rfl⟩ := h
    · exact faults_of_decode (e := .len16) hh hr (by rw [fetchBlock, hst, fetchStoredHeader, hp])
        ((Reader.nextBytesAsNumber_underrun (by decide) hlt).bind _)
    · exact faults_of_decode (e := .nlen16) hh hr (by rw [fetchBlock, hst, fetchStoredHeader, hp])
        ((Reader.nextBytesAsNumber_underrun (by decide) hlt).bind _)
    · exact faults_of_decode (e := .byte) hh hr (fetchBlock_of_stCopy hst hrem)
        ((Reader.nextByte_underrun (Nat.le_of_lt_succ hlt)).bind _)
  · change s.Faults .inputUnderrun
    refine faults_of_decode hh hr (fetchBlock_of_dyLens hst hi) ?_
    obtain ⟨hw, hne, rfl⟩ | ⟨hw, rfl⟩ | ⟨hw, rfl⟩ := h
    · refine (Tree.decodeSymbol_gives hw).bind_raises fun r hu =>
        clElement_underrun (.inl ⟨rfl, ?_, rfl⟩) (hu ▸ hlt)
      simpa using hne
    · exact (Tree.decodeSymbol_gives hw).bind_raises fun r hu =>
        clElement_underrun (.inr (.inl ⟨rfl, rfl⟩)) (hu ▸ hlt)
    · exact (Tree.decodeSymbol_gives hw).bind_raises fun r hu =>
        clElement_underrun (.inr (.inr ⟨rfl, rfl⟩)) (hu ▸ hlt)

end Machine

end Sys2Proof
end

section
/-! SUPPORT. `insert` and `decode_symbol` in the abstract view of 41_huffman_decoder.md R109: the
strings that have a node and the strings that are leaves. -/

namespace Sys2Proof

namespace Tree

/-- The tree below a bit, `nil` where there is none. -/
def child : Tree → Bool → Tree
  | nil, _ => nil
  | node _ c0 c1, b => if b then c1 else c0

theorem nodeAt_cons (t : Tree) (b : Bool) (v : List Bool) :
    t.nodeAt (b :: v) = (t.child b).nodeAt v := by
  cases t <;> cases b <;> cases v <;> rfl

theorem leafSym_cons (t : Tree) (b : Bool) (v : List Bool) :
    t.leafSym (b :: v) = (t.child b).leafSym v := by
  rw [leafSym, nodeAt_cons, leafSym]

theorem hasNode_cons (t : Tree) (b : Bool) (v : List Bool) :
    t.hasNode (b :: v) = (t.child b).hasNode v := by
  rw [hasNode, nodeAt_cons, hasNode]

/-- The root alone marks no string. -/
theorem leafSym_root (v : List Bool) : root.leafSym v = none := by
  cases v with
  | nil => rfl
  | cons b v => rw [leafSym_cons]; cases b <;> cases v <;> rfl

theorem child_insert_nil (s : BitVec 9) (t : Tree) (b : Bool) :
    (t.insert s []).child b = t.child b := by
  cases t <;> cases b <;> rfl

theorem child_insert_cons (s : BitVec 9) (a : Bool) (w : List Bool) (t : Tree) (b : Bool) :
    (t.insert s (a :: w)).child b = if b = a then (t.child b).insert s w else t.child b := by
  cases t <;> cases a <;> cases b <;> rfl

theorem leafSym_insert (s : BitVec 9) (w : List Bool) (t : Tree) (v : List Bool) :
    (t.insert s w).leafSym v = if v = w then some s else t.leafSym v := by
  induction w generalizing t v with
  | nil =>
    cases v with
    | nil => cases t <;> rfl
    | cons b v => simp [leafSym_cons, child_insert_nil]
  | cons a w ih =>
    cases v with
    | nil => cases t <;> cases a <;> rfl
    | cons b v =>
      rw [leafSym_cons, leafSym_cons, child_insert_cons]
      by_cases h : b = a <;> simp [h, ih]

theorem hasNode_insert (s : BitVec 9) (w : List Bool) (t : Tree) (v : List Bool) :
    (t.insert s w).hasNode v = (t.hasNode v || v.isPrefixOf w) := by
  induction w generalizing t v with
  | nil =>
    cases v with
    | nil => cases t <;> rfl
    | cons b v => simp [hasNode_cons, child_insert_nil]
  | cons a w ih =>
    cases v with
    | nil => cases t <;> cases a <;> rfl
    | cons b v =>
      rw [hasNode_cons, hasNode_cons, child_insert_cons]
      by_cases h : b = a <;> simp [h, ih]

/-- The node of `v` is there and is no leaf, so that a walk goes on through it. -/
def Inner (t : Tree) (v : List Bool) : Prop := t.hasNode v = true ∧ t.leafSym v = none

theorem asRoot_inner_nil (t : Tree) : t.asRoot.Inner [] := by cases t <;> exact ⟨rfl, rfl⟩

/-- The root as `decode_symbol` uses it is the tree itself behind the first bit. -/
theorem asRoot_nodeAt (t : Tree) {v : List Bool} (h : v ≠ []) : t.asRoot.nodeAt v = t.nodeAt v := by
  obtain ⟨b, v, rfl⟩ := List.exists_cons_of_ne_nil h
  cases t with
  | nil => cases b <;> cases v <;> rfl
  | node x c0 c1 => rfl

theorem follow_cons_of_inner {t : Tree} (h : t.Inner []) (b : Bool) (w : List Bool) :
    t.follow (b :: w) = (t.child b).follow w := by
  obtain ⟨hn, hs⟩ := h
  match t with
  | nil => cases hn
  | node (some _) _ _ => cases hs
  | node none _ _ => cases b <;> rfl

/-- A walk goes on through inner nodes to the node of the string it has read. -/
theorem follow_append_of_inner (w : List Bool) : ∀ {u : List Bool} {t : Tree},
    (∀ j < u.length, t.Inner (u.take j)) → t.follow (u ++ w) = (t.nodeAt u).follow w
  | [], t, _ => by rw [nodeAt]; rfl
  | b :: u, t, h => by
    rw [List.cons_append, follow_cons_of_inner (h 0 (Nat.zero_lt_succ _)), nodeAt_cons]
    refine follow_append_of_inner w fun j hj => ?_
    simpa only [Inner, List.take_succ_cons, hasNode_cons, leafSym_cons]
      using h (j + 1) (Nat.succ_lt_succ hj)

/-- `decode_symbol` never tests the root, so its walk goes on from the node of the string it has
read as soon as what it passed behind the root was inner. -/
theorem walk_append_of_inner {t : Tree} {u : List Bool} (hu : u ≠ [])
    (h : ∀ j, 1 ≤ j → j < u.length → t.Inner (u.take j)) (w : List Bool) :
    t.walk (u ++ w) = (t.nodeAt u).follow w := by
  rw [walk_eq_follow, follow_append_of_inner w, asRoot_nodeAt t hu]
  intro j hj
  cases j with
  | zero => exact t.asRoot_inner_nil
  | succ j =>
    have hne : u.take (j + 1) ≠ [] := by simp [hu]
    simpa only [Inner, hasNode, leafSym, asRoot_nodeAt t hne] using h (j + 1) (Nat.succ_pos j) hj

theorem follow_nodeAt_of_leaf {t : Tree} {u : List Bool} {s : BitVec 9} (h : t.leafSym u = some s)
    (w : List Bool) : (t.nodeAt u).follow w = some (s, w) := by
  unfold leafSym at h
  split at h
  · cases h
  · next e => rw [e, h]; rfl

theorem follow_nodeAt_of_missing {t : Tree} {u : List Bool} (h : t.hasNode u = false)
    (w : List Bool) : (t.nodeAt u).follow w = none := by
  have e : t.nodeAt u = nil := by simpa [hasNode] using h
  rw [e]; rfl

theorem follow_nodeAt_of_inner {t : Tree} {u : List Bool} (h : t.Inner u) :
    (t.nodeAt u).follow [] = none := by
  obtain ⟨-, hs⟩ := h
  unfold leafSym at hs
  split at hs
  · next e => rw [e]; rfl
  · next e => rw [e, hs]; rfl

end Tree

/-- The walk's symbol ends at the position its bits lead to. -/
theorem Tree.decodeSymbol_pos_of_walk {t : Tree} {r : Reader} {s : BitVec 9} {k : Nat} (hwf : r.wf)
    (hk : k ≤ r.unread.length) (h : t.walk r.unread = some (s, r.unread.drop k)) :
    ∃ r', t.decodeSymbol r = .ok s r' ∧ r'.pos = r.pos + k ∧ r'.mem = r.mem ∧
      r'.limit = r.limit := by
  obtain ⟨r', he, hu, hm, hl⟩ := decodeSymbol_gives h
  have hlater := t.decodeSymbol_later r
  rw [he] at hlater
  have hp := Reader.pos_le_of_wf (hlater.wf hwf)
  have hlen := congrArg List.length hu
  rw [List.length_drop, Reader.unread_length, Reader.unread_length] at hlen
  rw [Reader.unread_length] at hk
  have hpos := hlater.pos
  unfold Reader.endPos at hk hlen
  simp only [Read.reader] at hp hpos
  rw [hl] at hp hlen
  exact ⟨r', he, by omega, hm, hl⟩

/-- Settles O8: the two abstract views of `insert`. -/
theorem insertMarksOneLeaf : Obligations.InsertMarksOneLeaf :=
  fun t s w v => ⟨t.leafSym_insert s w v, t.hasNode_insert s w v⟩

/-- Settles O9: through inner nodes the walk comes to the node of what it has read, which
decides. -/
theorem decodeSymbolStopsAtFirstLeaf : Obligations.DecodeSymbolStopsAtFirstLeaf := by
  intro t r hwf
  have walk_at : ∀ k, 1 ≤ k → k ≤ r.unread.length →
      (∀ j, 1 ≤ j → j < k → t.Inner (r.unread.take j)) →
      t.walk r.unread = (t.nodeAt (r.unread.take k)).follow (r.unread.drop k) := by
    intro k hk hle hin
    have hne : r.unread.take k ≠ [] := by
      rw [← List.length_pos_iff, List.length_take]; omega
    rw [← Tree.walk_append_of_inner hne, List.take_append_drop]
    intro j hj hjk
    rw [List.length_take] at hjk
    rw [List.take_take, Nat.min_eq_left (by omega)]
    exact hin j hj (by omega)
  refine ⟨fun k hk hle hin => ⟨fun hn => ?_, fun s hs => ?_⟩, fun hin => ?_⟩
  · exact Tree.decodeSymbol_raises
      ((walk_at k hk hle hin).trans (Tree.follow_nodeAt_of_missing hn _))
  · exact Tree.decodeSymbol_pos_of_walk hwf hle
      ((walk_at k hk hle hin).trans (Tree.follow_nodeAt_of_leaf hs _))
  · refine Tree.decodeSymbol_raises ?_
    obtain hz | hp := Nat.eq_zero_or_pos r.unread.length
    · rw [List.length_eq_zero_iff.1 hz]; rfl
    · rw [walk_at _ hp le_rfl fun j hj hlt => hin j hj hlt.le, List.drop_length]
      exact Tree.follow_nodeAt_of_inner (hin _ hp le_rfl)

end Sys2Proof
end

section
/-! SUPPORT. What `build_tree` gives for any length set: its symbols and its size
(41_huffman_decoder.md R101, R107). -/

namespace Sys2Proof

theorem codeBits_length (c : BitVec 16) : ∀ l, (codeBits c l).length = l
  | 0 => rfl
  | l + 1 => congrArg Nat.succ (codeBits_length c l)

namespace Tree

/-- An insert creates at most one node per bit of the code, and the root where there was none. -/
theorem size_insert_le (s : BitVec 9) : ∀ (w : List Bool) (t : Tree),
    (t.insert s w).size ≤ max t.size 1 + w.length
  | [], nil => le_rfl
  | [], node _ _ _ => le_max_left ..
  | false :: w, nil | true :: w, nil => by
    have := size_insert_le s w nil
    simp only [insert, size, List.length_cons] at this ⊢
    omega
  | false :: w, node _ c0 _ => by
    have := size_insert_le s w c0
    simp only [insert, size, List.length_cons]
    omega
  | true :: w, node _ _ c1 => by
    have := size_insert_le s w c1
    simp only [insert, size, List.length_cons]
    omega

theorem symsBelow_node {n : Nat} {x : Option (BitVec 9)} {c0 c1 : Tree} :
    (node x c0 c1).symsBelow n = true ↔
      (∀ s ∈ x, s.toNat < n) ∧ c0.symsBelow n = true ∧ c1.symsBelow n = true := by
  cases x <;> simp [symsBelow, and_assoc]

theorem symsBelow_insert {n : Nat} {s : BitVec 9} (hs : s.toNat < n) :
    ∀ (w : List Bool) {t : Tree}, t.symsBelow n = true → (t.insert s w).symsBelow n = true
  | [], nil, _ => symsBelow_node.2 ⟨by simpa using hs, rfl, rfl⟩
  | [], node _ _ _, h => symsBelow_node.2 ⟨by simpa using hs, (symsBelow_node.1 h).2⟩
  | false :: w, nil, _ =>
    symsBelow_node.2 ⟨by simp, symsBelow_insert hs w (t := nil) rfl, rfl⟩
  | true :: w, nil, _ =>
    symsBelow_node.2 ⟨by simp, rfl, symsBelow_insert hs w (t := nil) rfl⟩
  | false :: w, node _ _ _, h =>
    have ⟨hx, h0, h1⟩ := symsBelow_node.1 h
    symsBelow_node.2 ⟨hx, symsBelow_insert hs w h0, h1⟩
  | true :: w, node _ _ _, h =>
    have ⟨hx, h0, h1⟩ := symsBelow_node.1 h
    symsBelow_node.2 ⟨hx, h0, symsBelow_insert hs w h1⟩

theorem symsBelow_mono {m n : Nat} (hmn : m ≤ n) : ∀ {t : Tree},
    t.symsBelow m = true → t.symsBelow n = true
  | nil, _ => rfl
  | node _ _ _, h =>
    have ⟨hx, h0, h1⟩ := symsBelow_node.1 h
    symsBelow_node.2
      ⟨fun s hs => (hx s hs).trans_le hmn, symsBelow_mono hmn h0, symsBelow_mono hmn h1⟩

/-- A symbol that is decoded is a symbol of the tree. -/
theorem arrive_symsBelow {n : Nat} {s : BitVec 9} : ∀ {t : Tree} {r r' : Reader},
    t.symsBelow n = true → t.arrive r = .ok s r' → s.toNat < n
  | nil, _, _, _, h => by cases h
  | node (some _) _ _, _, _, ht, h => by
    cases h
    exact (symsBelow_node.1 ht).1 _ rfl
  | node none c0 c1, r, _, ht, h => by
    obtain ⟨-, h0, h1⟩ := symsBelow_node.1 ht
    unfold arrive at h
    cases e : r.nextBit with
    | raise k r1 => rw [e] at h; cases h
    | ok b r1 =>
      rw [e] at h
      cases b
      · exact arrive_symsBelow h0 h
      · exact arrive_symsBelow h1 h

theorem decodeSymbol_symsBelow {n : Nat} {t : Tree} {r r' : Reader} {s : BitVec 9}
    (ht : t.symsBelow n = true) (h : t.decodeSymbol r = .ok s r') : s.toNat < n := by
  refine arrive_symsBelow ?_ h
  cases t with
  | nil => rfl
  | node _ _ _ => exact symsBelow_node.2 ⟨by simp, (symsBelow_node.1 ht).2⟩

end Tree

/-- The assignment loop gives every present position one insert. -/
theorem assignCodes_cons {i l : Nat} {bl : List Nat} {nc : List (BitVec 16)} {t : Tree}
    (h : l ≠ 0) :
    assignCodes i (l :: bl) nc t =
      assignCodes (i + 1) bl (nc.set l (nc.getD l 0#16 + 1#16))
        (t.insert (BitVec.ofNat 9 i) (codeBits (nc.getD l 0#16) l)) := if_neg h

/-- A position with length 0 has no code. -/
theorem assignCodes_zero {i : Nat} {bl : List Nat} {nc : List (BitVec 16)} {t : Tree} :
    assignCodes i (0 :: bl) nc t = assignCodes (i + 1) bl nc t := rfl

theorem assignCodes_size_le {L : Nat} : ∀ {bl : List Nat} (i : Nat) (nc : List (BitVec 16))
    (t : Tree), (∀ l ∈ bl, l ≤ L) → (assignCodes i bl nc t).1.size ≤ max t.size 1 + bl.length * L
  | [], _, _, _, _ => by simp [assignCodes]
  | l :: bl, i, nc, t, h => by
    obtain ⟨hl, hbl⟩ := List.forall_mem_cons.1 h
    rw [List.length_cons, Nat.succ_mul]
    by_cases h0 : l = 0
    · have := assignCodes_size_le (i + 1) nc t hbl
      rw [h0, assignCodes_zero]
      omega
    · rw [assignCodes_cons h0]
      refine (assignCodes_size_le _ _ _ hbl).trans ?_
      have := t.size_insert_le (BitVec.ofNat 9 i) (codeBits (nc.getD l 0#16) l)
      rw [codeBits_length] at this
      omega

theorem assignCodes_symsBelow {n : Nat} (hn : n ≤ 512) : ∀ {bl : List Nat} {i : Nat}
    (nc : List (BitVec 16)) {t : Tree}, i + bl.length ≤ n → t.symsBelow n = true →
    (assignCodes i bl nc t).1.symsBelow n = true
  | [], _, _, _, _, ht => ht
  | l :: bl, i, nc, t, hi, ht => by
    rw [List.length_cons] at hi
    by_cases h0 : l = 0
    · rw [h0, assignCodes_zero]
      exact assignCodes_symsBelow hn nc (by omega) ht
    · rw [assignCodes_cons h0]
      refine assignCodes_symsBelow hn _ (by omega) (Tree.symsBelow_insert ?_ _ ht)
      rw [BitVec.toNat_ofNat]
      omega

/-- The arena bound of 41_huffman_decoder.md R107. -/
theorem buildTree_size_le {bl : List Nat} {L : Nat} (h : ∀ l ∈ bl, l ≤ L) :
    (buildTree bl).tree.size ≤ 1 + bl.length * L :=
  assignCodes_size_le 0 _ Tree.root h

/-- The identity alphabet of 41_huffman_decoder.md R101. -/
theorem buildTree_symsBelow {bl : List Nat} (h : bl.length ≤ 512) :
    (buildTree bl).tree.symsBelow bl.length = true :=
  assignCodes_symsBelow h _ (Nat.zero_add _).le rfl

/-- Settles O10: at most one node per bit of a code, by induction over the positions. -/
theorem arenaNeverOverflows : Obligations.ArenaNeverOverflows :=
  ⟨fun _ _ h => buildTree_size_le h, rfl, rfl, rfl⟩

/-- Settles O11: every symbol inserted is the position it stands at. -/
theorem builtSymbolsInAlphabet : Obligations.BuiltSymbolsInAlphabet :=
  fun _ h => buildTree_symsBelow h

/-- Settles O13: each of the five sets is built and its tree read. -/
theorem workedLengthSets : Obligations.WorkedLengthSets := by
  unfold Obligations.WorkedLengthSets
  decide

end Sys2Proof
end

section
/-! SUPPORT. The canonical codes of a length set: what `build_tree` assigns, and for a proper set
that every code fits its length and none begins another (41_huffman_decoder.md R102, R104). -/

namespace Sys2Proof

/-! The codes over the natural numbers. -/

/-- One past the last canonical code of length `l`. -/
def codesEnd (bl : List Nat) (l : Nat) : Nat := firstCode bl l + if l = 0 then 0 else bl.count l

theorem firstCode_succ (bl : List Nat) (l : Nat) : firstCode bl (l + 1) = 2 * codesEnd bl l := rfl

theorem codesEnd_of_ne_zero {l : Nat} (bl : List Nat) (h : l ≠ 0) :
    codesEnd bl l = firstCode bl l + bl.count l := by rw [codesEnd, if_neg h]

/-- The Kraft sum of the present lengths up to `l`, in units of `2 ^ (-15)`. -/
def kraftUpTo (bl : List Nat) (l : Nat) : Nat :=
  (bl.map fun k => if k ≠ 0 ∧ k ≤ l then 2 ^ (15 - k) else 0).sum

theorem kraftUpTo_cons (k : Nat) (bl : List Nat) (l : Nat) :
    kraftUpTo (k :: bl) l = (if k ≠ 0 ∧ k ≤ l then 2 ^ (15 - k) else 0) + kraftUpTo bl l := rfl

theorem kraftUpTo_zero (bl : List Nat) : kraftUpTo bl 0 = 0 := by
  induction bl with
  | nil => rfl
  | cons k bl ih =>
    rw [kraftUpTo_cons, ih, if_neg (by omega)]

theorem kraftUpTo_succ (bl : List Nat) (l : Nat) :
    kraftUpTo bl (l + 1) = kraftUpTo bl l + bl.count (l + 1) * 2 ^ (15 - (l + 1)) := by
  induction bl with
  | nil => simp [kraftUpTo]
  | cons k bl ih =>
    rw [kraftUpTo_cons, kraftUpTo_cons, ih, List.count_cons]
    by_cases hk : k = l + 1
    · subst hk
      rw [if_pos (by omega), if_neg (by omega), if_pos (by simp), Nat.add_mul, Nat.one_mul]
      omega
    · have hiff : (k ≠ 0 ∧ k ≤ l + 1) ↔ (k ≠ 0 ∧ k ≤ l) := by omega
      simp only [hiff, beq_iff_eq, if_neg hk, Nat.add_zero]
      omega

theorem kraftUpTo_le (bl : List Nat) (l : Nat) :
    kraftUpTo bl l ≤ ((bl.filter (· ≠ 0)).map fun l => 2 ^ (15 - l)).sum := by
  induction bl with
  | nil => exact le_rfl
  | cons k bl ih =>
    rw [kraftUpTo_cons]
    by_cases hk : k = 0
    · simpa [hk] using ih
    · rw [List.filter_cons_of_pos (by simpa using hk), List.map_cons, List.sum_cons]
      refine Nat.add_le_add ?_ ih
      split
      · exact le_rfl
      · exact Nat.zero_le _

/-- The codes up to length `l` cover as much of the code space as their Kraft sum. -/
theorem codesEnd_mul (bl : List Nat) : ∀ l ≤ 15, codesEnd bl l * 2 ^ (15 - l) = kraftUpTo bl l
  | 0, _ => by rw [kraftUpTo_zero]; exact Nat.zero_mul _
  | l + 1, h => by
    have hpow : 2 ^ (15 - l) = 2 * 2 ^ (15 - (l + 1)) := by
      rw [← Nat.pow_succ', show (15 - (l + 1)).succ = 15 - l by omega]
    rw [kraftUpTo_succ, ← codesEnd_mul bl l (by omega), codesEnd_of_ne_zero bl l.succ_ne_zero,
      firstCode_succ, hpow]
    ring

theorem properLens_iff {bl : List Nat} : properLens bl = true ↔
    (∀ l ∈ bl, l ≤ 15) ∧ ((bl.filter (· ≠ 0)).map fun l => 2 ^ (15 - l)).sum ≤ 2 ^ 15 := by
  simp [properLens]

/-- In a proper set the codes of each length fit it. -/
theorem codesEnd_le {bl : List Nat} (hp : properLens bl = true) {l : Nat} (hl : l ≤ 15) :
    codesEnd bl l ≤ 2 ^ l := by
  refine Nat.le_of_mul_le_mul_right ?_ (Nat.two_pow_pos (15 - l))
  calc codesEnd bl l * 2 ^ (15 - l) = kraftUpTo bl l := codesEnd_mul bl l hl
    _ ≤ 2 ^ 15 := (kraftUpTo_le bl l).trans (properLens_iff.1 hp).2
    _ = 2 ^ l * 2 ^ (15 - l) := by rw [← Nat.pow_add, Nat.add_sub_cancel' hl]

/-- Codes of a longer length lie behind all codes of a shorter one, extended. -/
theorem codesEnd_mul_le_firstCode (bl : List Nat) (l : Nat) :
    ∀ d, codesEnd bl l * 2 ^ (d + 1) ≤ firstCode bl (l + (d + 1))
  | 0 => by rw [firstCode_succ, Nat.mul_comm]; exact le_rfl
  | d + 1 => by
    calc codesEnd bl l * 2 ^ (d + 1 + 1) = 2 * (codesEnd bl l * 2 ^ (d + 1)) := by
          rw [Nat.pow_succ]; ring
      _ ≤ 2 * codesEnd bl (l + (d + 1)) :=
        Nat.mul_le_mul_left 2 ((codesEnd_mul_le_firstCode bl l d).trans (Nat.le_add_right ..))

/-- A position is one more of its length behind those before it. -/
theorem count_take_lt {bl : List Nat} {i : Nat} (h : i < bl.length) :
    (bl.take i).count (bl.getD i 0) < bl.count (bl.getD i 0) := by
  rw [List.getD_eq_getElem bl 0 h]
  calc (bl.take i).count bl[i] < (bl.take i).count bl[i] + (bl.drop i).count bl[i] := by
        rw [List.drop_eq_getElem_cons h, List.count_cons_self]; omega
    _ = bl.count bl[i] := by rw [← List.count_append, List.take_append_drop]

section
variable {bl : List Nat} {i j : Nat}

theorem canonCode_lt_codesEnd (h : i < bl.length) (h0 : bl.getD i 0 ≠ 0) :
    canonCode bl i < codesEnd bl (bl.getD i 0) := by
  rw [codesEnd_of_ne_zero bl h0]
  exact Nat.add_lt_add_left (count_take_lt h) _

/-- Codes of one length are assigned in symbol order. -/
theorem canonCode_lt_canonCode (hij : i < j) (hj : j ≤ bl.length)
    (h : bl.getD i 0 = bl.getD j 0) : canonCode bl i < canonCode bl j := by
  have hlt : i < (bl.take j).length := by rw [List.length_take]; omega
  have hget : (bl.take j).getD i 0 = bl.getD i 0 := by
    simp [List.getD_eq_getElem?_getD, hij]
  have hc := count_take_lt hlt
  rw [hget, List.take_take, Nat.min_eq_left hij.le] at hc
  unfold canonCode
  rw [← h]
  exact Nat.add_lt_add_left hc _

/-- A shorter code, extended to a longer length, is below every code of that length. -/
theorem canonCode_lt_div (hi : i < bl.length) (h0 : bl.getD i 0 ≠ 0)
    (h : bl.getD i 0 < bl.getD j 0) :
    canonCode bl i < canonCode bl j / 2 ^ (bl.getD j 0 - bl.getD i 0) := by
  obtain ⟨d, hd⟩ := Nat.exists_eq_add_of_lt h
  rw [Nat.lt_iff_add_one_le, Nat.le_div_iff_mul_le (Nat.two_pow_pos _)]
  calc (canonCode bl i + 1) * 2 ^ (bl.getD j 0 - bl.getD i 0)
      ≤ codesEnd bl (bl.getD i 0) * 2 ^ (d + 1) := by
        rw [show bl.getD j 0 - bl.getD i 0 = d + 1 by omega]
        exact Nat.mul_le_mul_right _ (canonCode_lt_codesEnd hi h0)
    _ ≤ firstCode bl (bl.getD i 0 + (d + 1)) := codesEnd_mul_le_firstCode bl _ d
    _ = firstCode bl (bl.getD j 0) := by rw [hd, Nat.add_assoc]
    _ ≤ canonCode bl j := Nat.le_add_right ..

end

/-! The codes as bits. -/

@[simp] theorem huffBits_length : ∀ n c, (huffBits n c).length = n
  | 0, _ => rfl
  | n + 1, c => congrArg Nat.succ (huffBits_length n c)

/-- The first bits of a code are the code without its last bits. -/
theorem huffBits_take (m c : Nat) : ∀ n, (huffBits (n + m) c).take n = huffBits n (c / 2 ^ m)
  | 0 => rfl
  | n + 1 => by
    rw [Nat.add_right_comm, huffBits, List.take_succ_cons, huffBits_take m c n, huffBits,
      Nat.testBit_div_two_pow, Nat.add_comm n m]

theorem huffBits_mod_eq {a b : Nat} : ∀ {n}, huffBits n a = huffBits n b → a % 2 ^ n = b % 2 ^ n
  | 0, _ => by rw [Nat.pow_zero, Nat.mod_one, Nat.mod_one]
  | n + 1, h => by
    obtain ⟨hbit, hrest⟩ := List.cons.inj h
    rw [Nat.mod_pow_succ, Nat.mod_pow_succ, huffBits_mod_eq hrest, ← Nat.toNat_testBit,
      ← Nat.toNat_testBit, hbit]

/-- A code that begins another is the other without its last bits. -/
theorem eq_div_of_huffBits_prefix {m n a b : Nat} (ha : a < 2 ^ m) (hb : b < 2 ^ n)
    (h : huffBits m a <+: huffBits n b) : m ≤ n ∧ a = b / 2 ^ (n - m) := by
  have hmn : m ≤ n := by simpa using h.length_le
  obtain ⟨d, rfl⟩ := Nat.exists_eq_add_of_le hmn
  have he := List.prefix_iff_eq_take.1 h
  rw [huffBits_length, huffBits_take] at he
  have hmod := huffBits_mod_eq he
  rw [Nat.pow_add, Nat.mul_comm] at hb
  rw [Nat.mod_eq_of_lt ha, Nat.mod_eq_of_lt (Nat.div_lt_of_lt_mul hb)] at hmod
  exact ⟨hmn, by rwa [Nat.add_sub_cancel_left]⟩

theorem codeBits_ofNat (c : Nat) : ∀ {l}, l ≤ 16 → codeBits (BitVec.ofNat 16 c) l = huffBits l c
  | 0, _ => rfl
  | l + 1, h => by
    rw [codeBits, codeBits_ofNat c (by omega), BitVec.getLsbD_ofNat, huffBits,
      decide_eq_true (by omega), Bool.true_and]

/-! What `build_tree` assigns. -/

/-- The inserts of the positions `is`, in order, each with its code. -/
def placeCodes (code : Nat → List Bool) (is : List Nat) (t : Tree) : Tree :=
  is.foldl (fun t i => t.insert (BitVec.ofNat 9 i) (code i)) t

section
variable {code : Nat → List Bool}

theorem placeCodes_cons (i : Nat) (is : List Nat) (t : Tree) :
    placeCodes code (i :: is) t = placeCodes code is (t.insert (BitVec.ofNat 9 i) (code i)) := rfl

theorem hasNode_placeCodes (v : List Bool) : ∀ (is : List Nat) (t : Tree),
    (placeCodes code is t).hasNode v = (t.hasNode v || is.any fun i => v.isPrefixOf (code i))
  | [], t => by rw [List.any_nil, Bool.or_false]; rfl
  | i :: is, t => by
    rw [placeCodes_cons, hasNode_placeCodes v is, Tree.hasNode_insert, List.any_cons, Bool.or_assoc]

/-- What no code marks stays as it was. -/
theorem leafSym_placeCodes_of_ne {v : List Bool} : ∀ {is : List Nat} {t : Tree},
    (∀ i ∈ is, code i ≠ v) → (placeCodes code is t).leafSym v = t.leafSym v
  | [], _, _ => rfl
  | i :: is, t, h => by
    obtain ⟨hi, his⟩ := List.forall_mem_cons.1 h
    rw [placeCodes_cons, leafSym_placeCodes_of_ne his, Tree.leafSym_insert, if_neg hi.symm]

/-- A code of its own marks its position. -/
theorem leafSym_placeCodes {i : Nat} : ∀ {is : List Nat} {t : Tree}, i ∈ is →
    (∀ j ∈ is, code j = code i → j = i) →
    (placeCodes code is t).leafSym (code i) = some (BitVec.ofNat 9 i)
  | [], _, hi, _ => by cases hi
  | j :: is, t, hi, h => by
    obtain ⟨hj, his⟩ := List.forall_mem_cons.1 h
    rw [placeCodes_cons]
    by_cases hmem : i ∈ is
    · exact leafSym_placeCodes hmem his
    · obtain rfl : i = j := (List.mem_cons.1 hi).resolve_right hmem
      have hne : ∀ k ∈ is, code k ≠ code i := fun k hk e => hmem (his k hk e ▸ hk)
      rw [leafSym_placeCodes_of_ne hne, Tree.leafSym_insert, if_pos rfl]

/-- A code with no other before it on the way down is decoded as its position. -/
theorem walk_placeCodes {is : List Nat} {i : Nat} (hi : i ∈ is) (hne : code i ≠ [])
    (h : ∀ j ∈ is, code j <+: code i → j = i) (w : List Bool) :
    (placeCodes code is Tree.root).walk (code i ++ w) = some (BitVec.ofNat 9 i, w) := by
  rw [Tree.walk_append_of_inner hne]
  · exact Tree.follow_nodeAt_of_leaf
      (leafSym_placeCodes hi fun j hj e => h j hj (by rw [e])) w
  · intro k _ hk
    have hpre : (code i).take k <+: code i := List.take_prefix k _
    refine ⟨?_, ?_⟩
    · rw [hasNode_placeCodes, Bool.or_eq_true, List.any_eq_true]
      exact .inr ⟨i, hi, List.isPrefixOf_iff_prefix.2 hpre⟩
    · rw [leafSym_placeCodes_of_ne, Tree.leafSym_root]
      intro j hj e
      obtain rfl := h j hj (e ▸ hpre)
      have := congrArg List.length e
      rw [List.length_take] at this
      omega

end

/-- The canonical code of a position as bits in walking order. -/
def canonBits (bl : List Nat) (i : Nat) : List Bool := huffBits (bl.getD i 0) (canonCode bl i)

/-- The positions of a length set that have a code, from `i` on. -/
def presentFrom (bl : List Nat) (i : Nat) : List Nat :=
  (List.range' i (bl.length - i)).filter fun j => bl.getD j 0 ≠ 0

theorem presentFrom_eq {bl : List Nat} {i : Nat} (h : i < bl.length) :
    presentFrom bl i =
      if bl.getD i 0 = 0 then presentFrom bl (i + 1) else i :: presentFrom bl (i + 1) := by
  unfold presentFrom
  rw [show bl.length - i = bl.length - (i + 1) + 1 by omega, List.range'_succ, List.filter_cons]
  simp

theorem mem_presentFrom_zero {bl : List Nat} {i : Nat} :
    i ∈ presentFrom bl 0 ↔ i < bl.length ∧ bl.getD i 0 ≠ 0 := by
  simp [presentFrom, List.mem_range']

/-- The first codes that the counters give are the canonical ones modulo `2 ^ 16`
(41_huffman_decoder.md R102). -/
theorem firstCodes_eq {bl : List Nat} (h : bl.length < 512) : ∀ n a,
    firstCodes (BitVec.ofNat 16 (firstCode bl a))
        ((List.range' a n).map fun l => BitVec.ofNat 9 (if l = 0 then 0 else bl.count l)) =
      (List.range' (a + 1) n).map fun l => BitVec.ofNat 16 (firstCode bl l)
  | 0, _ => rfl
  | n + 1, a => by
    have hcount : (if a = 0 then 0 else bl.count a) < 512 := by
      have := bl.count_le_length (a := a)
      split <;> omega
    have hnext : (BitVec.ofNat 16 (firstCode bl a) +
          (BitVec.ofNat 9 (if a = 0 then 0 else bl.count a)).setWidth 16) <<< 1 =
        BitVec.ofNat 16 (firstCode bl (a + 1)) := by
      rw [firstCode_succ, codesEnd]
      generalize (if a = 0 then 0 else bl.count a) = c at hcount
      apply BitVec.eq_of_toNat_eq
      simp [Nat.shiftLeft_eq]
      omega
    rw [List.range'_succ, List.map_cons, firstCodes, hnext, firstCodes_eq h n (a + 1),
      List.range'_succ, List.map_cons]

theorem initCodes_eq {bl : List Nat} (h : bl.length < 512) :
    initCodes (countLens bl) = (List.range' 0 16).map fun l => BitVec.ofNat 16 (firstCode bl l) :=
  congrArg (0#16 :: ·) (firstCodes_eq h 15 0)

/-- What the next code of each length is before position `i`. -/
def NextCodes (bl : List Nat) (i : Nat) (nc : List (BitVec 16)) : Prop :=
  nc.length = 16 ∧
    ∀ l, 1 ≤ l → l ≤ 15 → nc.getD l 0#16 = BitVec.ofNat 16 (firstCode bl l + (bl.take i).count l)

theorem nextCodes_zero {bl : List Nat} (h : bl.length < 512) :
    NextCodes bl 0 (initCodes (countLens bl)) := by
  rw [initCodes_eq h]
  refine ⟨rfl, fun l h1 h15 => ?_⟩
  interval_cases l <;> rfl

theorem count_take_succ {bl : List Nat} {i : Nat} (hi : i < bl.length) (l : Nat) :
    (bl.take (i + 1)).count l = (bl.take i).count l + if bl.getD i 0 = l then 1 else 0 := by
  rw [List.take_succ_eq_append_getElem hi, List.count_append, List.count_singleton,
    List.getD_eq_getElem bl 0 hi]
  simp only [beq_iff_eq]

namespace NextCodes

variable {bl : List Nat} {i : Nat} {nc : List (BitVec 16)}

/-- A position without a code leaves them. -/
theorem absent (h : NextCodes bl i nc) (hi : i < bl.length) (h0 : bl.getD i 0 = 0) :
    NextCodes bl (i + 1) nc := by
  obtain ⟨hlen, hnc⟩ := h
  refine ⟨hlen, fun l h1 h15 => ?_⟩
  rw [hnc l h1 h15, count_take_succ hi, if_neg (by omega), Nat.add_zero]

/-- A position with a code takes the next one of its length. -/
theorem present (h : NextCodes bl i nc) (hi : i < bl.length) :
    NextCodes bl (i + 1) (nc.set (bl.getD i 0) (nc.getD (bl.getD i 0) 0#16 + 1#16)) := by
  obtain ⟨hlen, hnc⟩ := h
  refine ⟨List.length_set.trans hlen, fun l h1 hl15 => ?_⟩
  rw [count_take_succ hi]
  by_cases hl : bl.getD i 0 = l
  · rw [hl, if_pos rfl, hnc l h1 hl15, List.getD_eq_getElem?_getD,
      List.getElem?_set_self (by omega), Option.getD_some, ← Nat.add_assoc]
    exact (BitVec.ofNat_add _ 1).symm
  · rw [if_neg hl, Nat.add_zero, Machine.getD_set_of_ne hl, hnc l h1 hl15]

/-- The code a position takes is its canonical code. -/
theorem codeBits_eq (h : NextCodes bl i nc) (h0 : bl.getD i 0 ≠ 0) (h15 : bl.getD i 0 ≤ 15) :
    codeBits (nc.getD (bl.getD i 0) 0#16) (bl.getD i 0) = canonBits bl i := by
  obtain ⟨-, hnc⟩ := h
  rw [hnc _ (by omega) h15]
  exact codeBits_ofNat _ (by omega)

end NextCodes

/-- The assignment loop inserts every present position with its canonical code
(41_huffman_decoder.md R102). -/
theorem assignCodes_eq_placeCodes {bl : List Nat} (h15 : ∀ l ∈ bl, l ≤ 15) {n : Nat} :
    ∀ {i : Nat} {nc : List (BitVec 16)} {t : Tree}, i + n = bl.length → NextCodes bl i nc →
      (assignCodes i (bl.drop i) nc t).1 = placeCodes (canonBits bl) (presentFrom bl i) t := by
  induction n with
  | zero =>
    intro i nc t hi _
    obtain rfl : i = bl.length := hi
    rw [List.drop_length, presentFrom, Nat.sub_self]
    rfl
  | succ n ih =>
    intro i nc t hi hnc
    have hlt : i < bl.length := by omega
    have hl15 : bl.getD i 0 ≤ 15 := by
      rw [List.getD_eq_getElem bl 0 hlt]; exact h15 _ (List.getElem_mem hlt)
    rw [List.drop_eq_getElem_cons hlt, ← List.getD_eq_getElem bl 0 hlt, presentFrom_eq hlt]
    by_cases h0 : bl.getD i 0 = 0
    · rw [if_pos h0, h0, assignCodes_zero]
      exact ih (by omega) (hnc.absent hlt h0)
    · rw [if_neg h0, assignCodes_cons h0, placeCodes_cons, hnc.codeBits_eq h0 hl15]
      exact ih (by omega) (hnc.present hlt)

theorem buildTree_eq_placeCodes {bl : List Nat} (h : bl.length < 512) (h15 : ∀ l ∈ bl, l ≤ 15) :
    (buildTree bl).tree = placeCodes (canonBits bl) (presentFrom bl 0) Tree.root :=
  assignCodes_eq_placeCodes h15 (Nat.zero_add _) (nextCodes_zero h)

/-! Proper sets. -/

section
variable {bl : List Nat} (hp : properLens bl = true) {i j : Nat}
include hp

/-- Every code of a proper set fits its length. -/
theorem canonCode_lt_two_pow (h : i < bl.length) (h0 : bl.getD i 0 ≠ 0) :
    canonCode bl i < 2 ^ bl.getD i 0 := by
  have h15 : bl.getD i 0 ≤ 15 := by
    rw [List.getD_eq_getElem bl 0 h]; exact (properLens_iff.1 hp).1 _ (List.getElem_mem h)
  exact (canonCode_lt_codesEnd h h0).trans_le (codesEnd_le hp h15)

/-- No code of a proper set begins another: a code of the same length is another number, and the
start of a longer one a larger. -/
theorem eq_of_canonBits_prefix (hi : i < bl.length) (hi0 : bl.getD i 0 ≠ 0) (hj : j < bl.length)
    (hj0 : bl.getD j 0 ≠ 0) (h : canonBits bl i <+: canonBits bl j) : i = j := by
  obtain ⟨hle, heq⟩ := eq_div_of_huffBits_prefix (canonCode_lt_two_pow hp hi hi0)
    (canonCode_lt_two_pow hp hj hj0) h
  obtain hlt | hsame := Nat.lt_or_eq_of_le hle
  · exact absurd heq (canonCode_lt_div hi hi0 hlt).ne
  · rw [hsame, Nat.sub_self, Nat.pow_zero, Nat.div_one] at heq
    obtain h' | h' | h' := Nat.lt_trichotomy i j
    · exact absurd heq (canonCode_lt_canonCode h' hj.le hsame).ne
    · exact h'
    · exact absurd heq (canonCode_lt_canonCode h' hi.le hsame.symm).ne'

/-- The canonical code of a position is decoded as it, whatever follows. -/
theorem walk_canonBits (hlen : bl.length < 512) (hi : i < bl.length) (hi0 : bl.getD i 0 ≠ 0)
    (w : List Bool) :
    (buildTree bl).tree.walk (canonBits bl i ++ w) = some (BitVec.ofNat 9 i, w) := by
  rw [buildTree_eq_placeCodes hlen (properLens_iff.1 hp).1]
  have hne : canonBits bl i ≠ [] := by
    rw [← List.length_pos_iff, canonBits, huffBits_length]; omega
  refine walk_placeCodes (mem_presentFrom_zero.2 ⟨hi, hi0⟩) hne (fun j hj hpre => ?_) w
  obtain ⟨hj, hj0⟩ := mem_presentFrom_zero.1 hj
  exact eq_of_canonBits_prefix hp hj hj0 hi hi0 hpre

end

/-- Settles O12: the codes fit by the Kraft sum, the tree is that of the canonical codes, and none
of them lies on the way to another. -/
theorem properSetsDecodeCanonically : Obligations.ProperSetsDecodeCanonically :=
  fun _ hlen hp _ hi hi0 =>
    ⟨canonCode_lt_two_pow hp hi hi0, walk_canonBits hp (by omega) hi hi0⟩

end Sys2Proof
end

section
/-! SUPPORT. Every step keeps the trees in their alphabets and arenas (41_huffman_decoder.md R101,
R107), and none takes IllegalSmallTree (42_block_state_machine.md R123). -/

namespace Sys2Proof

/-- A read that does not end in IllegalSmallTree. -/
def Read.Legal {α : Type} (x : Read α) : Prop := ∀ k r, x = .raise k r → k ≠ .illegalSmallTree

theorem Read.Legal.ok {α : Type} (a : α) (r : Reader) : (Read.ok a r).Legal := nofun

theorem Read.Legal.raise {α : Type} {k : ErrKind} {r : Reader} (h : k ≠ .illegalSmallTree) :
    (Read.raise k r : Read α).Legal := by
  rintro _ _ ⟨⟩
  exact h

theorem Read.Legal.bind {α β : Type} {x : Read α} {f : α → Reader → Read β} (hx : x.Legal)
    (hf : ∀ a r, x = .ok a r → (f a r).Legal) : (x.bind f).Legal := by
  cases x with
  | ok a r => exact hf a r rfl
  | raise k r => exact .raise (hx k r rfl)

namespace Reader

theorem nextBit_legal (r : Reader) : r.nextBit.Legal := fun _ _ h => by
  rw [(nextBit_raise h).1]; nofun

theorem nextBits_legal : ∀ (n : Nat) (r : Reader), (r.nextBits n).Legal
  | 0, r => .ok 0 r
  | n + 1, r =>
    r.nextBit_legal.bind fun _ r' _ => (nextBits_legal n r').bind fun _ _ _ => .ok _ _

theorem nextByte_legal (r : Reader) : r.nextByte.Legal := by
  unfold nextByte
  dsimp only
  split
  · exact .raise nofun
  · exact .ok _ _

theorem nextBytesAsNumber_legal : ∀ (n : Nat) (r : Reader), (r.nextBytesAsNumber n).Legal
  | 0, r => .ok 0 r
  | n + 1, r =>
    r.nextByte_legal.bind fun _ r' _ => (nextBytesAsNumber_legal n r').bind fun _ _ _ => .ok _ _

end Reader

theorem rawField_legal (n : Nat) (f : Nat → Instr) (r : Reader) : (rawField n f r).Legal :=
  (r.nextBits_legal n).bind fun _ _ _ => .ok _ _

theorem decodeHeader_legal (r : Reader) : (decodeHeader r).Legal := by
  refine r.nextBit_legal.bind fun _ r' _ => (r'.nextBits_legal 2).bind fun _ _ _ => ?_
  split <;> exact .ok _ _

theorem decodeClLens_legal : ∀ (n : Nat) (r : Reader), (decodeClLens n r).Legal
  | 0, r => .ok [] r
  | n + 1, r =>
    (r.nextBits_legal 3).bind fun _ r' _ => (decodeClLens_legal n r').bind fun _ _ _ => .ok _ _

/-- The last arm of 42_block_state_machine.md R118 is dead for a symbol of 0 to 18. -/
theorem clElement_legal {first : Bool} {y : BitVec 9} (hy : y.toNat < 19) (r : Reader) :
    (clElement first y r).Legal := by
  unfold clElement
  split
  · exact .ok _ _
  split
  · split
    · exact .raise nofun
    · exact rawField_legal _ _ _
  split
  · exact rawField_legal _ _ _
  split
  · exact rawField_legal _ _ _
  · omega

theorem llElement_legal (y : Nat) (r : Reader) : (llElement y r).Legal := by
  unfold llElement
  split
  · exact .ok _ _
  split
  · exact .ok _ _
  split
  · exact rawField_legal _ _ _
  split
  · exact .ok _ _
  split
  · exact .ok _ _
  · exact .raise nofun

theorem dElement_legal (d : Nat) (r : Reader) : (dElement d r).Legal := by
  unfold dElement
  split
  · exact rawField_legal _ _ _
  split
  · exact .ok _ _
  split
  · exact .ok _ _
  · exact .raise nofun

theorem Tree.decodeSymbol_legal (t : Tree) (r : Reader) : (t.decodeSymbol r).Legal :=
  fun _ _ h => by rw [decodeSymbol_raise h]; nofun

/-- Only a code-length symbol outside its alphabet would be illegal (42_block_state_machine.md
R123). -/
theorem decode_legal {e : Expect} (h : ∀ t first, e = .clSym t first → t.symsBelow 19 = true)
    (r : Reader) : (decode e r).Legal := by
  cases e with
  | header => exact decodeHeader_legal r
  | pad => exact .ok _ _
  | len16 | nlen16 => exact (r.nextBytesAsNumber_legal 2).bind fun _ _ _ => .ok _ _
  | byte => exact r.nextByte_legal.bind fun _ _ _ => .ok _ _
  | hlit | hdist | hclen => exact rawField_legal _ _ _
  | cllen n => exact (decodeClLens_legal n r).bind fun _ _ _ => .ok _ _
  | clSym t first =>
    exact (t.decodeSymbol_legal r).bind fun _ r' hd =>
      clElement_legal (Tree.decodeSymbol_symsBelow (h t first rfl) hd) r'
  | llSym t => exact (t.decodeSymbol_legal r).bind fun _ r' _ => llElement_legal _ r'
  | lenX y => exact llElement_legal y r
  | dSym t => exact (t.decodeSymbol_legal r).bind fun _ r' _ => dElement_legal _ r'
  | distX d => exact dElement_legal d r

namespace Machine

variable {s t : State}

theorem State.raise_err_ne_four {k : ErrKind} (h : k ≠ .illegalSmallTree) (s : State) :
    (s.raise k).err ≠ 4#4 := fun e => h (errCode_inj e)

/-- OutAppend takes no fault but OutputOverflow. -/
theorem State.outAppend_err_ne_four {v : Byte} {next : State → State} (h : s.err ≠ 4#4)
    (hnext : ∀ u : State, (next u).err = u.err) : (s.outAppend v next).err ≠ 4#4 := by
  obtain ⟨-, e⟩ | ⟨-, e⟩ := s.outAppend_cases v next <;> rw [e]
  · exact State.raise_err_ne_four (by decide) _
  · rw [hnext]; exact h

theorem State.repeatLen_err_ne_four (h : s.err ≠ 4#4) (v : BitVec 4) (n : BitVec 8) :
    (s.repeatLen v n).err ≠ 4#4 := by
  obtain ⟨-, e⟩ | ⟨-, e⟩ := s.repeatLen_cases v n <;> rw [e]
  · exact State.raise_err_ne_four (by decide) _
  · exact h

theorem State.takeDist_err_ne_four (h : s.err ≠ 4#4) (d y : Nat) : (s.takeDist d y).err ≠ 4#4 := by
  obtain ⟨-, e⟩ | ⟨-, e⟩ := s.takeDist_cases d y <;> rw [e]
  · exact State.raise_err_ne_four (by decide) _
  · exact h

theorem execStart_err_ne_four {m : Mode} (hs : s.err ≠ 4#4) (h : exec (.start m) s = .next t) :
    t.err ≠ 4#4 := by
  by_cases hb : s.busy = true
  · cases (if_pos hb).symm.trans h
    exact hs
  by_cases hc : s.par.inCap < s.inLen
  · cases ((if_neg hb).trans (if_pos hc)).symm.trans h
  cases ((if_neg hb).trans (if_neg hc)).symm.trans h
  cases m <;> exact (by decide : 0#4 ≠ 4#4)

/-- No instruction takes IllegalSmallTree. -/
theorem exec_err_ne_four {i : Instr} (hs : s.err ≠ 4#4) (h : exec i s = .next t) : t.err ≠ 4#4 := by
  cases hl : i.lengthParts with
  | some p => cases (exec_of_lengthParts hl s).symm.trans h; exact hs
  | none =>
  cases hd : i.distParts with
  | some p => cases (exec_of_distParts hd s).symm.trans h; exact s.takeDist_err_ne_four hs _ _
  | none =>
  cases i with
  | blockStored | blockFixed | blockDynamic => cases h; exact hs
  | pad | len16 | hlit | hdist | hclen | cllen | cl | eob => cases h; exact hs
  | blockReserved | llsym286 | llsym287 | dsym30 | dsym31 =>
    cases h
    exact State.raise_err_ne_four (by decide) _
  | nlen16 =>
    cases h
    dsimp only
    split
    · exact State.raise_err_ne_four (by decide) _
    · exact hs
  | zhdr | dictid | adler =>
    cases h
    split
    · exact State.raise_err_ne_four (by decide) _
    · exact hs
  | cl16 =>
    cases h
    split
    · exact State.raise_err_ne_four (by decide) _
    · exact s.repeatLen_err_ne_four hs _ _
  | cl17 | cl18 => cases h; exact s.repeatLen_err_ne_four hs _ _
  | byte | lit => cases h; exact State.outAppend_err_ne_four hs fun _ => rfl
  | start m => exact execStart_err_ne_four hs h
  | reset => cases h; exact (by decide : 0#4 ≠ 4#4)
  | _ => simp [Instr.lengthParts, Instr.distParts] at hl hd

/-- A fetch that does not end in IllegalSmallTree, in what it reads or in its row. -/
def Fetch.Legal (s : State) : Fetch → Prop
  | .elem _ _ => True
  | .row o => ∀ t, o = .next t → s.err ≠ 4#4 → t.err ≠ 4#4
  | .raised k _ => k ≠ .illegalSmallTree

theorem Fetch.Legal.row_next (h : t.err = s.err) : Fetch.Legal s (.row (.next t)) := by
  rintro _ ⟨⟩ hs
  rwa [h]

theorem Fetch.Legal.fault (f : Fault) : Fetch.Legal s (.row (.fault f)) := fun _ h => nomatch h

theorem Fetch.Legal.of_read {x : Read Instr} (hx : x.Legal) : Fetch.Legal s (.ofRead t x) := by
  cases x with
  | ok i r => trivial
  | raise k r => exact hx k r rfl

theorem guardIn_legal {f : Fetch} (h : f.Legal s) : (guardIn s f).Legal s := by
  unfold guardIn
  split
  · exact h
  · exact .fault _

theorem fetchElem_legal {e : Expect} (h : ∀ t first, e = .clSym t first → t.symsBelow 19 = true) :
    (fetchElem e s).Legal s :=
  guardIn_legal (.of_read (decode_legal h s.reader))

theorem fetchSymbol_legal (s : State) : (fetchSymbol s).Legal s := by
  refine guardIn_legal ?_
  split
  · next h => exact s.llt.decodeSymbol_legal s.reader _ _ h
  · split
    · exact .row_next rfl
    · exact .of_read (llElement_legal _ _)

theorem fetchDistSymbol_legal (s : State) : (fetchDistSymbol s).Legal s := by
  refine guardIn_legal ?_
  split
  · next h => exact s.dt.decodeSymbol_legal s.reader _ _ h
  · split
    · exact .row_next rfl
    · exact .of_read (dElement_legal _ _)

theorem rowCopy_legal (s : State) : (Fetch.row (rowCopy s)).Legal s := by
  intro t h hs
  obtain ⟨-, rfl⟩ | ⟨-, -, -, rfl⟩ := rowCopy_cases h
  · exact hs
  · exact State.outAppend_err_ne_four hs fun _ => rfl

/-- With the code-length tree in its alphabet the block's step is legal in every state. -/
theorem fetchBlock_legal (h : s.clt.symsBelow 19 = true) : (fetchBlock s).Legal s := by
  cases hst : s.state <;> rw [fetchBlock, hst] <;> dsimp only
  case idle | fxSetup | dyCltree | dyTrees | blkEnd | done | error => exact .row_next rfl
  case zhdr =>
    obtain e | e | ⟨_, e⟩ := fetchEnvelope_cases s <;> rw [e]
    · exact .fault _
    · exact ErrKind.noConfusion
    · trivial
  case blkHdr =>
    unfold fetchHeader
    split
    · exact ErrKind.noConfusion
    · exact fetchElem_legal nofun
  case stHdr => unfold fetchStoredHeader; split <;> exact fetchElem_legal nofun
  case dyCounts => unfold fetchCounts; split <;> exact fetchElem_legal nofun
  case stCopy =>
    split
    · exact .row_next rfl
    · exact fetchElem_legal nofun
  case dyLens =>
    split
    · exact fetchElem_legal fun _ _ e => by cases e; exact h
    · exact .row_next rfl
  case dyClen | lenX | distX => exact fetchElem_legal nofun
  case sym => exact fetchSymbol_legal s
  case distSym => exact fetchDistSymbol_legal s
  case copy => exact rowCopy_legal s

theorem fetchBlock_err_ne_four (h : s.clt.symsBelow 19 = true) (hs : s.err ≠ 4#4)
    (he : (fetchBlock s).outcome = .next t) : t.err ≠ 4#4 := by
  have hl := fetchBlock_legal h
  cases e : fetchBlock s with
  | elem i s' =>
    obtain ⟨r, -, rfl⟩ := fetchBlock_elem e
    rw [e] at he
    exact exec_err_ne_four (s := s.withReader r) hs he
  | row o => rw [e] at he hl; exact hl t he hs
  | raised k s' => rw [e] at he hl; cases he; exact State.raise_err_ne_four hl _

/-! The trees in their alphabets and arenas. -/

/-- A build over at most `n` positions, no length above `L`, is within alphabet and arena. -/
theorem buildTree_within {bl : List Nat} {n L : Nat} (hlen : bl.length ≤ n) (hn : n ≤ 512)
    (hL : ∀ l ∈ bl, l ≤ L) :
    (buildTree bl).tree.symsBelow n = true ∧ (buildTree bl).tree.size ≤ 1 + n * L :=
  ⟨Tree.symsBelow_mono hlen (buildTree_symsBelow (hlen.trans hn)),
    (buildTree_size_le hL).trans (Nat.add_le_add_left (Nat.mul_le_mul_right L hlen) 1)⟩

theorem State.TreesSound.of_eq (h : s.TreesSound) (hc : t.clt = s.clt) (hl : t.llt = s.llt)
    (hd : t.dt = s.dt) : t.TreesSound := by
  constructor <;> simp only [hc, hl, hd, h.clSyms, h.llSyms, h.dSyms, h.clSize, h.llSize, h.dSize]

/-- The literal/length and the distance tree set anew (42_block_state_machine.md R114, R124). -/
theorem State.TreesSound.setTrees {l d : Tree} (h : s.TreesSound) (b : Build)
    (hl : l.symsBelow 288 = true ∧ l.size ≤ nodeCapLl)
    (hd : d.symsBelow 32 = true ∧ d.size ≤ nodeCapD) :
    State.TreesSound { (s.withScratch b) with llt := l, dt := d, state := .sym } :=
  { h with llSyms := hl.1, llSize := hl.2, dSyms := hd.1, dSize := hd.2 }

theorem mem_map_toNat_le {n : Nat} {bs : List (BitVec n)} {l : Nat} (h : l ∈ bs.map BitVec.toNat) :
    l ≤ 2 ^ n - 1 := by
  obtain ⟨b, -, rfl⟩ := List.mem_map.1 h
  exact Nat.le_sub_one_of_lt b.isLt

theorem State.llLens_length_le (s : State) : s.llLens.length ≤ 288 := by
  have := s.hlit.isLt
  simp only [State.llLens, List.length_map, List.length_take]
  omega

theorem State.dLens_length_le (s : State) : s.dLens.length ≤ 32 := by
  have := s.hdist.isLt
  simp only [State.dLens, List.length_map, List.length_take]
  omega

/-- The fixed bit lengths of 30_encoding.md R63 are 7 to 9. -/
theorem fixedLlLen_le : ∀ l ∈ fixedLlLen, l ≤ 15 := by
  simp only [fixedLlLen, List.mem_append, List.mem_replicate]
  omega

theorem fixedLlLen_length : fixedLlLen.length = 288 := by
  simp only [fixedLlLen, List.length_append, List.length_replicate]

theorem fixedLlTree_within :
    fixedLlTree.symsBelow 288 = true ∧ fixedLlTree.size ≤ nodeCapLl := by
  unfold fixedLlTree
  exact buildTree_within fixedLlLen_length.le (by decide) fixedLlLen_le

theorem fixedDTree_within : fixedDTree.symsBelow 32 = true ∧ fixedDTree.size ≤ nodeCapD := by
  unfold fixedDTree
  exact buildTree_within (L := 15) (by decide) (by decide) (by decide)

theorem rowFixedSetup_treesSound (h : s.TreesSound) : (rowFixedSetup s).TreesSound :=
  h.setTrees _ fixedLlTree_within fixedDTree_within

theorem rowTrees_treesSound (h : s.TreesSound) : (rowTrees s).TreesSound :=
  h.setTrees _
    (buildTree_within s.llLens_length_le (by decide) fun _ => mem_map_toNat_le)
    (buildTree_within s.dLens_length_le (by decide) fun _ => mem_map_toNat_le)

theorem rowClTree_treesSound (h : s.TreesSound) (hlen : s.clLen.length = 19) :
    (rowClTree s).TreesSound := by
  obtain ⟨hs, hn⟩ := buildTree_within (bl := s.clLen.map BitVec.toNat) (n := 19) (L := 7)
    (by rw [List.length_map, hlen]) (by omega) fun _ => mem_map_toNat_le
  exact { h with clSyms := hs, clSize := hn }

/-- Three rows build trees; nothing else the block does touches them. -/
theorem Act.treesSound (hs : s.Sound) (h : s.TreesSound) (a : Act s t) : t.TreesSound := by
  cases a with
  | elem _ he =>
    have f := exec_instrFrame hs.outWf he
    exact h.of_eq f.clt f.llt f.dt
  | fixedSetup => exact rowFixedSetup_treesSound h
  | clTree => exact rowClTree_treesSound h hs.clLen
  | trees => exact rowTrees_treesSound h
  | copy _ he =>
    obtain ⟨-, rfl⟩ | ⟨-, -, -, rfl⟩ := rowCopy_cases he
    · exact h.of_eq rfl rfl rfl
    · obtain ⟨-, e⟩ | ⟨-, e⟩ := s.outAppend_cases (s.outMem.read (s.outLen - s.dist.toNat))
        (fun u => { u with copyRem := u.copyRem - 1#9 }) <;> rw [e] <;> exact h.of_eq rfl rfl rfl
  | _ => exact h.of_eq rfl rfl rfl

theorem fetchBlock_treesSound (hs : s.Sound) (h : s.TreesSound)
    (he : (fetchBlock s).outcome = .next t) : t.TreesSound := by
  obtain ⟨s', hr, a⟩ := fetchBlock_next he
  have hs' := hs.of_readOn hr
  obtain ⟨⟨r, -, rfl⟩, -⟩ := hr
  exact a.treesSound hs' (h.of_eq rfl rfl rfl)

/-! The step. -/

/-- From `s` to `t` the trees stay sound and no IllegalSmallTree is taken. -/
def State.KeepsTrees (s t : State) : Prop := t.TreesSound ∧ (s.err ≠ 4#4 → t.err ≠ 4#4)

/-- A state that differs neither in the trees nor in `ERR`. -/
theorem State.TreesSound.keeps (h : s.TreesSound)
    (e : t = { t with clt := s.clt, llt := s.llt, dt := s.dt, err := s.err }) : s.KeepsTrees t := by
  rw [e]
  exact ⟨h.of_eq rfl rfl rfl, id⟩

theorem exec_keepsTrees {i : Instr} (hs : s.Sound) (h : s.TreesSound) (he : exec i s = .next t) :
    s.KeepsTrees t := by
  have f := exec_instrFrame hs.outWf he
  exact ⟨h.of_eq f.clt f.llt f.dt, fun hn => exec_err_ne_four hn he⟩

theorem fetchBlock_keepsTrees (hs : s.Sound) (h : s.TreesSound)
    (he : (fetchBlock s).outcome = .next t) : s.KeepsTrees t :=
  ⟨fetchBlock_treesSound hs h he, fun hn => fetchBlock_err_ne_four h.clSyms hn he⟩

/-- Every access of the host leaves the trees, and `ERR` too but for START and RESET, which clear
it. -/
theorem fetchHost_keepsTrees {op : HostOp} (hs : s.Sound) (h : s.TreesSound)
    (he : (fetchHost op s).outcome = .next t) : s.KeepsTrees t := by
  cases op with
  | run => exact fetchBlock_keepsTrees hs h he
  | writeCtrl v =>
    cases hd : decodeCtrl v with
    | none => rw [fetchHost_mode s hd] at he; cases he; exact h.keeps rfl
    | some i => rw [fetchHost_start s hd] at he; exact exec_keepsTrees hs h he
  | writeInLen n =>
    by_cases hb : s.busy = true
    · cases (if_pos hb).symm.trans he
    · cases (if_neg hb).symm.trans he
      exact h.keeps rfl
  | writeIn a v =>
    by_cases hb : s.busy = true
    · cases (if_pos hb).symm.trans he
    by_cases ha : s.par.inCap ≤ a
    · cases ((if_neg hb).trans (if_pos ha)).symm.trans he
    · cases ((if_neg hb).trans (if_neg ha)).symm.trans he
      exact h.keeps rfl
  | writeOut a v =>
    by_cases hb : s.busy = true
    · cases (if_pos hb).symm.trans he
    by_cases ha : s.par.outCap ≤ a
    · cases ((if_neg hb).trans (if_pos ha)).symm.trans he
    · cases ((if_neg hb).trans (if_neg ha)).symm.trans he
      exact h.keeps rfl
  | readReg r =>
    cases he
    cases r with
    | ctrl | inLen | status => exact h.keeps rfl
    | err | outLen => dsimp only; split <;> exact h.keeps rfl
  | readOut a =>
    by_cases ha : s.par.outCap ≤ a
    · cases (if_pos ha).symm.trans he
    by_cases hd : s.run = .done ∧ a < s.outLen
    · cases ((if_neg ha).trans (if_pos hd)).symm.trans he
      exact h.keeps rfl
    · cases ((if_neg ha).trans (if_neg hd)).symm.trans he
      exact h.keeps rfl
  | assertReset => exact exec_keepsTrees (i := .reset) hs h he

/-- Settles O58: an access of the host leaves the trees, and the block builds them within their
bounds, so that its code-length symbols are 0 to 18 and the last arm of R118 is dead. -/
theorem smallTreeFaultCannotOccur : Obligations.SmallTreeFaultCannotOccur := by
  intro s t hi h he
  have hs := hi.sound
  cases hh : s.host with
  | nil =>
    exact fetchBlock_keepsTrees hs h ((step_of_host_nil hh).symm.trans he)
  | cons op ops =>
    exact fetchHost_keepsTrees (s := { s with host := ops }) (hs.of_host ops)
      (h.of_eq rfl rfl rfl) ((step_of_host_cons hh).symm.trans he)

end Machine
end Sys2Proof
end

section
/-! SUPPORT. The elements whose whole meaning is one update of the state
(42_block_state_machine.md R111 to R115, R126). -/

namespace Sys2Proof.Machine

/-- Settles O16: each usable header is one update, `State.header`. -/
theorem blockHeadersComplete : Obligations.BlockHeadersComplete := fun _ _ => ⟨rfl, rfl, rfl⟩

/-- Settles O30: each of the five elements is `State.raise` after its own register. -/
theorem invalidElementsFault : Obligations.InvalidElementsFault := fun _ =>
  ⟨fun _ => rfl, rfl, rfl, rfl, rfl⟩

/-- The pad moves the cursor alone (40_bit_reader.md R93). -/
theorem State.withReader_align (s : State) :
    s.withReader s.reader.align =
      { s with
        byteCursor := if s.bitCursor = 0#3 then s.byteCursor else s.byteCursor + 1,
        bitCursor := 0#3 } := by
  by_cases h0 : s.bitCursor = 0#3
  · rw [Reader.align_of_aligned (r := s.reader) h0, if_pos h0, ← h0]
    rfl
  · have halign : s.reader.align = s.reader.atByte (s.byteCursor + 1) := if_neg h0
    rw [halign, if_neg h0]
    rfl

/-- A matching NLEN starts the copy (42_block_state_machine.md R113). -/
theorem exec_nlen16_of_match {s : State} {n : BitVec 16} (h : n = s.stLen ^^^ 0xFFFF#16) :
    exec (.nlen16 n) s =
      .next { s with stNlen := n, stRem := s.stLen, state := .stCopy, part := .first } :=
  congrArg Host.Outcome.next (if_neg (not_not.2 h))

/-- Any other NLEN is UncompressedLengthMismatch (60_exceptions.md R165). -/
theorem exec_nlen16_of_mismatch {s : State} {n : BitVec 16} (h : n ≠ s.stLen ^^^ 0xFFFF#16) :
    exec (.nlen16 n) s =
      .next (({ s with stNlen := n } : State).raise .uncompressedLengthMismatch) :=
  congrArg Host.Outcome.next (if_pos h)

/-- Settles O17: the pad by `align`, LEN by its update, NLEN by its branch where it matches. -/
theorem storedHeaderElements : Obligations.StoredHeaderElements := by
  refine fun s n => ⟨?_, rfl, exec_nlen16_of_match rfl⟩
  change Host.Outcome.next { s.withReader s.reader.align with part := .second } = _
  rw [s.withReader_align]

/-- Settles O18: the other branch of NLEN. -/
theorem lengthMismatchFaults : Obligations.LengthMismatchFaults :=
  fun _ _ h => exec_nlen16_of_mismatch h

/-- Settles O21: the counts are updates, `total` exact in its 9 bits. -/
theorem dynamicCounts : Obligations.DynamicCounts :=
  fun s _ _ => ⟨rfl, rfl, _, rfl, rfl, totalOf_toNat s.hlit s.hdist⟩

end Sys2Proof.Machine
end

section
/-! SUPPORT. The elements that append a byte to an output with room for it
(43_lz77_symbols.md R131, R138; 42_block_state_machine.md R113). -/

namespace Sys2Proof.Machine

/-- `OutAppend` where there is room: the byte is written at `out_len` and counted. -/
theorem State.outAppend_of_room {s : State} {v : Byte} {next : State → State}
    (h : s.outLen ≠ s.par.outCap) :
    s.outAppend v next =
      next { s with outMem := s.outMem.write s.outLen v, outLen := s.outLen + 1 } := if_neg h

/-- Settles O19: both elements append where there is room, and the byte is that of a write. -/
theorem litAndByteAppend : Obligations.LitAndByteAppend := by
  intro s x hwf hroom
  have hmem : (s.outMem.write s.outLen x).wf = true ∧
      ∀ a, (s.outMem.write s.outLen x).read a = if a = s.outLen then x else s.outMem.read a :=
    ⟨Mem.write_wf s.outLen x hwf, fun a => Mem.read_write s.outLen a x hwf⟩
  exact ⟨⟨_, congrArg Host.Outcome.next (State.outAppend_of_room hroom), rfl, hmem⟩,
    ⟨_, congrArg Host.Outcome.next (State.outAppend_of_room hroom), rfl, hmem⟩⟩

end Sys2Proof.Machine
end

section
/-! SUPPORT. The bit lengths of a dynamic block: the one length of CL, and the runs of CL16, CL17
and CL18 with their two faults (42_block_state_machine.md R119 to R122). -/

namespace Sys2Proof.Machine

/-- Every entry after one was set. -/
theorem getD_set {α : Type} {xs : List α} {i j : Nat} {v d : α} (hi : i < xs.length) :
    (xs.set i v).getD j d = if j = i then v else xs.getD j d := by
  by_cases h : j = i
  · rw [if_pos h, h, List.getD_eq_getElem _ _ (by rwa [List.length_set]), List.getElem_set_self]
  · rw [if_neg h, getD_set_of_ne (Ne.symm h)]

/-- Settles O23: one entry set, and `idx` within its 9 bits. -/
theorem codeLengthStored : Obligations.CodeLengthStored := by
  intro s n hlen hidx
  refine ⟨_, rfl, rfl, ?_, by rwa [List.length_set], fun j _ => getD_set (by omega)⟩
  rw [BitVec.toNat_add]
  exact Nat.mod_eq_of_lt (show s.idx.toNat + 1 < 512 by omega)

theorem repOf_toNat {base x : Nat} (h : base + x < 256) : (repOf base x).toNat = base + x :=
  Nat.mod_eq_of_lt h

/-- The element repeats the bit length `v`, `n` times; a CL16 needs a length before it
(42_block_state_machine.md R120 to R122). -/
inductive RunOf (s : State) : Instr → BitVec 4 → Nat → Prop
  | cl16 (r : BitVec 2) (h : s.idx ≠ 0#9) : RunOf s (.cl16 r) s.prevLen (3 + r.toNat)
  | cl17 (r : BitVec 3) : RunOf s (.cl17 r) 0#4 (3 + r.toNat)
  | cl18 (r : BitVec 7) : RunOf s (.cl18 r) 0#4 (11 + r.toNat)

section
variable {s : State} {i : Instr} {v : BitVec 4} {n : Nat}

/-- The elements that repeat share one meaning, the number of copies exact in 8 bits. -/
theorem exec_of_runOf (h : RunOf s i v n) :
    ∃ rep : BitVec 8, rep.toNat = n ∧ exec i s = .next (s.repeatLen v rep) := by
  cases h with
  | cl16 r h => exact ⟨_, repOf_toNat (by omega), congrArg Host.Outcome.next (if_neg h)⟩
  | cl17 r => exact ⟨_, repOf_toNat (by omega), rfl⟩
  | cl18 r => exact ⟨_, repOf_toNat (by omega), rfl⟩

/-- A run that fits below `total` is written from `idx` on. -/
theorem exec_run_fits (h : RunOf s i v n) (hlen : s.lens.length = 320)
    (htotal : s.total.toNat ≤ 320) (hfit : s.idx.toNat + n ≤ s.total.toNat) :
    ∃ t, exec i s = .next t ∧ t = { s with lens := t.lens, idx := t.idx, rep := t.rep } ∧
      t.rep.toNat = n ∧ t.idx.toNat = s.idx.toNat + n ∧ t.lens.length = 320 ∧
      ∀ j < 320,
        t.lens.getD j 0#4 =
          if s.idx.toNat ≤ j ∧ j < s.idx.toNat + n then v else s.lens.getD j 0#4 := by
  obtain ⟨rep, rfl, hexec⟩ := exec_of_runOf h
  obtain ⟨hover, -⟩ | ⟨-, hrun⟩ := s.repeatLen_cases v rep
  · omega
  refine ⟨_, hexec.trans (congrArg _ hrun), rfl, rfl, ?_, (fill_length ..).trans hlen,
    fun j hj => ?_⟩
  · exact Nat.mod_eq_of_lt (show s.idx.toNat + rep.toNat < 512 by omega)
  · simp only [fill_getD, hlen, hj, and_true]

/-- A run past `total` is CodeLengthOverrun before any entry is written (60_exceptions.md R173). -/
theorem exec_run_overrun (h : RunOf s i v n) (hover : s.total.toNat < s.idx.toNat + n) :
    ∃ t, exec i s = .next t ∧ t = { s with rep := t.rep, err := 10#4, state := .error } ∧
      t.rep.toNat = n := by
  obtain ⟨rep, rfl, hexec⟩ := exec_of_runOf h
  obtain ⟨-, hfault⟩ | ⟨hfit, -⟩ := s.repeatLen_cases v rep
  · exact ⟨_, hexec.trans (congrArg _ hfault), rfl, rfl⟩
  · omega

end

/-- Settles O24: each of the three is a run, which fits. -/
theorem repeatsWriteTheirRun : Obligations.RepeatsWriteTheirRun := by
  intro s i base x v hlen htotal hfit h
  have hrun : RunOf s i v (base + x) := by
    obtain ⟨r, rfl, rfl, rfl, h0, rfl⟩ | ⟨r, rfl, rfl, rfl, rfl⟩ | ⟨r, rfl, rfl, rfl, rfl⟩ := h
    · exact .cl16 r h0
    · exact .cl17 r
    · exact .cl18 r
  rw [Nat.add_assoc] at hfit ⊢
  exact exec_run_fits hrun hlen htotal hfit

/-- A step whose element cannot be decoded takes the fault of the read, with the cursor where the
read has left it (40_bit_reader.md R97; 60_exceptions.md R163). -/
theorem step_of_decode_raise {s : State} {e : Expect} {k : ErrKind} {r : Reader} (hh : s.host = [])
    (hr : s.inReadable = true) (hf : fetchBlock s = fetchElem e s)
    (h : decode e s.reader = .raise k r) : step s = .next ((s.withReader r).raise k) := by
  rw [step_of_host_nil hh, hf, fetchElem, guardIn, if_pos hr, h]
  rfl

/-- A walk in the window ends where the bits it leaves begin. -/
theorem decodeSymbol_ok_of_walk {t : Sys2Proof.Tree} {r : Reader} {y : BitVec 9} {w : List Bool}
    (hwf : r.wf) (h : t.walk r.unread = some (y, w)) :
    ∃ r', t.decodeSymbol r = .ok y r' ∧ r'.pos + w.length = 8 * r.limit := by
  obtain ⟨r', he, hw, -, hl⟩ := Tree.decodeSymbol_gives h
  have hlater := t.decodeSymbol_later r
  rw [he] at hlater
  have hle : r'.pos ≤ 8 * r'.limit := Reader.pos_le_of_wf (hlater.wf hwf)
  have hlen : w.length = 8 * r'.limit - r'.pos := hw ▸ r'.unread_length
  exact ⟨r', he, by omega⟩

/-- Settles O25: in `exec` by the test of `idx` and the test of `total`; in a run by the decoding,
which raises between the code and the extra bits. -/
theorem repeatFaults : Obligations.RepeatFaults := by
  refine fun s => ⟨fun r h0 => congrArg Host.Outcome.next (if_pos h0), fun r h0 hover => ?_,
    fun r hover => ?_, fun r hover => ?_, fun w hst h0 htotal hh hr hwf hw => ?_⟩
  · exact exec_run_overrun (.cl16 r h0) (by omega)
  · exact exec_run_overrun (.cl17 r) (by omega)
  · exact exec_run_overrun (.cl18 r) (by omega)
  · obtain ⟨r, hsym, hpos⟩ := decodeSymbol_ok_of_walk hwf hw
    have hidx : s.idx.toNat < s.total.toNat := by rwa [h0]
    have hdecode : decode (.clSym s.clt (s.idx == 0#9)) s.reader =
        .raise .repeatWithoutPrevious r := by
      rw [decode, hsym, h0]
      rfl
    exact ⟨_, step_of_decode_raise hh hr (fetchBlock_of_dyLens hst hidx) hdecode, rfl, hpos⟩

end Sys2Proof.Machine
end

section
/-! SUPPORT. The block header as a step, the loop over blocks and the states that rest
(42_block_state_machine.md R110 to R112, R125, R126; 44_stream_and_wrapper.md R148, R149). -/

namespace Sys2Proof

/-- The header element of BFINAL and of the value of BTYPE (30_encoding.md R61). -/
def headerElement (final : Bool) : Nat → Instr
  | 0 => .blockStored final
  | 1 => .blockFixed final
  | 2 => .blockDynamic final
  | _ => .blockReserved final

theorem decodeHeader_eq (r : Reader) :
    decodeHeader r =
      r.nextBit.bind fun f r => (r.nextBits 2).bind fun v r => .ok (headerElement f v) r := by
  unfold decodeHeader
  congr 1
  funext f r
  congr 1
  funext v r
  match v with
  | 0 | 1 | 2 | _ + 3 => rfl

/-- Three bits of header: BFINAL first, then BTYPE, low bit first (30_encoding.md R61). -/
theorem decodeHeader_of_fits {r : Reader} (h : r.pos + 3 ≤ r.endPos) :
    ∃ r', decodeHeader r =
        .ok (headerElement (r.bitAt r.pos)
          ((r.bitAt (r.pos + 1)).toNat + 2 * (r.bitAt (r.pos + 2)).toNat)) r' ∧
      r'.pos = r.pos + 3 := by
  obtain ⟨r₁, h₁, hp₁, hm₁, hl₁, -⟩ := Reader.nextBit_ok (r := r) (by
    rw [Reader.endPos, Reader.pos] at h; omega)
  obtain ⟨r₂, h₂, hp₂, -⟩ := Reader.nextBits_ok (n := 2) (r := r₁) (by
    rw [hp₁, Reader.endPos, hl₁, ← Reader.endPos]; omega)
  refine ⟨r₂, ?_, by omega⟩
  rw [decodeHeader_eq, h₁, Read.bind_ok, h₂, Reader.bitAt_congr hm₁, hp₁]
  simp [Finset.sum_range_succ, Nat.mul_comm, Nat.add_assoc]

/-- Fewer than three bits are InputUnderrun (40_bit_reader.md R97). -/
theorem decodeHeader_underrun {r : Reader} (h : r.unread.length < 3) :
    (decodeHeader r).Raises .inputUnderrun := by
  rw [decodeHeader_eq]
  cases hu : r.unread with
  | nil => exact Read.Raises.bind ⟨r, Reader.nextBit_underrun_of_unread hu⟩ _
  | cons b w =>
    rw [hu, List.length_cons] at h
    exact (Reader.nextBit_gives hu).bind_raises fun r' hr' =>
      (Reader.nextBits_underrun (hr' ▸ Nat.lt_of_succ_lt_succ h)).bind _

namespace Machine

/-- The state a block type leads to (42_block_state_machine.md R112, R126). -/
def BlockState.ofType (y : BitVec 2) : BlockState :=
  if y = 0#2 then .stHdr else if y = 1#2 then .fxSetup else if y = 2#2 then .dyCounts else .error

/-- The state after a header of any type. -/
def State.afterHeader (s : State) (final : Bool) (y : BitVec 2) : State :=
  { s.header final y (.ofType y) with err := if y = 3#2 then 1#4 else s.err }

theorem exec_headerElement (s : State) (final : Bool) (y : BitVec 2) :
    exec (headerElement final y.toNat) s = .next (s.afterHeader final y) := by
  have hcases : ∀ y : BitVec 2, y = 0#2 ∨ y = 1#2 ∨ y = 2#2 ∨ y = 3#2 := by decide
  obtain rfl | rfl | rfl | rfl := hcases y <;> rfl

section
variable {s : State}

theorem fetchBlock_of_blkHdr (hst : s.state = .blkHdr) (hc : s.blocks ≠ s.par.blockCap) :
    fetchBlock s = fetchElem .header s := by
  rw [fetchBlock, hst]
  exact if_neg hc

/-- At the cap no header is read (44_stream_and_wrapper.md R149). -/
theorem step_of_blockCap (hh : s.host = []) (hst : s.state = .blkHdr)
    (hc : s.blocks = s.par.blockCap) : step s = .next (s.raise .missingFinalBlock) := by
  have hfetch : fetchBlock s = .raised .missingFinalBlock s := by
    rw [fetchBlock, hst]
    exact if_pos hc
  rw [step_of_host_nil hh, hfetch]
  rfl

theorem step_of_blkEnd (hh : s.host = []) (hst : s.state = .blkEnd) :
    step s = .next (rowBlockEnd s) := step_of_row hh (by rw [fetchBlock, hst])

end

/-- Settles O33: the three bits by the reads of the header, then what the element of each type
does. -/
theorem headerStep : Obligations.HeaderStep := by
  intro s hst hh hc hr
  have hfetch := fetchBlock_of_blkHdr hst hc
  refine ⟨fun hfit => ?_, fun hshort => ?_⟩
  · obtain ⟨r, hdecode, hpos⟩ := decodeHeader_of_fits (r := s.reader) hfit
    have htype : ∃ y : BitVec 2, y.toNat = (s.reader.bitAt (s.reader.pos + 1)).toNat +
        2 * (s.reader.bitAt (s.reader.pos + 2)).toNat := by
      have := (s.reader.bitAt (s.reader.pos + 1)).toNat_le
      have := (s.reader.bitAt (s.reader.pos + 2)).toNat_le
      exact ⟨BitVec.ofNat 2 _, Nat.mod_eq_of_lt (by omega)⟩
    obtain ⟨y, hy⟩ := htype
    rw [← hy] at hdecode
    have hstep := step_of_elem hh (hfetch.trans (fetchElem_of_ok hr hdecode))
    rw [exec_headerElement] at hstep
    refine ⟨_, hstep, hpos, rfl, rfl, hy, fun (h : y = _) => ?_, fun (h : y = _) => ?_,
      fun (h : y = _) => ?_, fun (h : y = _) => ?_⟩ <;> subst h <;> exact ⟨rfl, rfl⟩
  · have hlen : s.reader.unread.length < 3 := by
      have : s.reader.endPos < s.reader.pos + 3 := hshort
      rw [Reader.unread_length]
      omega
    obtain ⟨r, hdecode⟩ := decodeHeader_underrun hlen
    exact ⟨_, step_of_decode_raise hh hr hfetch hdecode, rfl, rfl, rfl⟩

/-- Settles O34: the cap is tested in the fetch; the end of a block is one row. -/
theorem blockLoop : Obligations.BlockLoop := by
  refine fun s hh => ⟨fun hst hc => step_of_blockCap hh hst hc, fun hst hf => ?_, fun hst hf => ?_⟩
  · rw [step_of_blkEnd hh hst, rowBlockEnd, hf]
    rfl
  · rw [step_of_blkEnd hh hst, rowBlockEnd, hf]
    rfl

theorem State.doneO_iff {s : State} : s.doneO = true ↔ s.state = .done ∨ s.state = .error := by
  unfold State.doneO State.run
  cases s.state <;> decide

/-- Settles O49: a block that is not BUSY fetches itself. -/
theorem restStates : Obligations.RestStates := by
  refine fun s => ⟨fun hst hh => step_of_row hh (fetchBlock_of_not_busy ?_), State.doneO_iff⟩
  obtain hst | hst | hst := hst <;> rw [State.busy, State.run, hst] <;> rfl

end Machine

end Sys2Proof
end

section
/-! SUPPORT. The end of a block, and the two faults of the item loop that stop it before a byte is
written (43_lz77_symbols.md R132, R138, R139). -/

namespace Sys2Proof.Machine

/-- `OutAppend` where the output is full: OutputOverflow, and nothing after it runs. -/
theorem State.outAppend_of_full {s : State} {v : Byte} {next : State → State}
    (h : s.outLen = s.par.outCap) : s.outAppend v next = s.raise .outputOverflow := if_pos h

/-- Settles O20: both elements append, LIT after it has written `sym`. -/
theorem appendToFullOutputFaults : Obligations.AppendToFullOutputFaults := fun s x hfull =>
  ⟨congrArg Host.Outcome.next
      (State.outAppend_of_full (s := { s with sym := x.setWidth 9 }) hfull),
    congrArg Host.Outcome.next (State.outAppend_of_full hfull)⟩

/-- Settles O26: EOB is one update of the state. -/
theorem endOfBlockEnds : Obligations.EndOfBlockEnds := fun _ => rfl

/-- Settles O29: the meaning the DIST elements share, its operand exact and past the output. -/
theorem distanceTooFarFaults : Obligations.DistanceTooFarFaults := by
  intro s i d y h hfar
  obtain ⟨hd, -, -⟩ := distElement_of_parts h
  obtain ⟨hexact, -, -⟩ := distOf_exact h
  obtain ⟨-, ht⟩ | ⟨hle, -⟩ := s.takeDist_cases d y
  · refine ⟨_, (exec_of_distParts h s).trans (congrArg _ ht), rfl, ?_, hexact⟩
    rw [State.raise_dsym, BitVec.toNat_ofNat, Nat.mod_eq_of_lt (by omega)]
  · omega

end Sys2Proof.Machine
end

section
/-! SUPPORT. The back-reference copy: its row as a step, and its run in closed form
(43_lz77_symbols.md R135, R140). -/

namespace Sys2Proof.Machine

section
variable {s : State}

/-- COPY is one row (42_block_state_machine.md R110). -/
theorem step_of_copy (hst : s.state = .copy) (hh : s.host = []) : step s = rowCopy s := by
  rw [step_of_host_nil hh, fetchBlock, hst]
  rfl

/-- The byte at `out_len - dist`, read now, goes to `out_len`. -/
def State.copyMem (s : State) : Mem :=
  s.outMem.write s.outLen (s.outMem.read (s.outLen - s.dist.toNat))

theorem State.copyMem_read (hwf : s.outMem.wf = true) (a : Nat) :
    s.copyMem.read a =
      if a = s.outLen then s.outMem.read (s.outLen - s.dist.toNat) else s.outMem.read a :=
  Mem.read_write s.outLen a _ hwf

section
variable (hst : s.state = .copy) (hh : s.host = []) (hrem : s.copyRem ≠ 0#9)
  (hpos : 1 ≤ s.dist.toNat) (hle : s.dist.toNat ≤ s.outLen)
include hst hh hrem hpos hle

/-- With a byte left and its source within the output, the step is an append. -/
theorem step_copyAppend :
    step s = .next (s.outAppend (s.outMem.read (s.outLen - s.dist.toNat)) fun s =>
      { s with copyRem := s.copyRem - 1#9 }) := by
  rw [step_of_copy hst hh, rowCopy, if_neg hrem, if_neg (by omega)]

theorem step_copyByte (hroom : s.outLen ≠ s.par.outCap) :
    step s = .next
      { s with
        outLen := s.outLen + 1, copyRem := s.copyRem - 1#9, outMem := s.copyMem } :=
  (step_copyAppend hst hh hrem hpos hle).trans
    (congrArg Host.Outcome.next (State.outAppend_of_room hroom))

theorem step_copyFull (hfull : s.outLen = s.par.outCap) :
    step s = .next (s.raise .outputOverflow) :=
  (step_copyAppend hst hh hrem hpos hle).trans
    (congrArg Host.Outcome.next (State.outAppend_of_full hfull))

end

end

/-- Settles O36: the row with nothing left, and the append of a byte with and without room. -/
theorem copyStep : Obligations.CopyStep := by
  refine fun s hst hh => ⟨fun h0 => ?_, step_copyFull hst hh, fun hrem hpos hle hroom hwf => ?_⟩
  · rw [step_of_copy hst hh]
    exact if_pos h0
  · have hcount : (s.copyRem - 1#9).toNat + 1 = s.copyRem.toNat := by bv_omega
    exact ⟨_, step_copyByte hst hh hrem hpos hle hroom, rfl, hcount, Mem.write_wf _ _ hwf,
      State.copyMem_read hwf⟩

/-- The state after `k` bytes of the copy, the output then being `m`. -/
def State.afterCopied (s : State) (k : Nat) (m : Mem) : State :=
  { s with outLen := s.outLen + k, copyRem := s.copyRem - BitVec.ofNat 9 k, outMem := m }

/-- `m` is the output after `k` bytes of the copy: the closed form above the old `out_len`, and
nothing changed below it (43_lz77_symbols.md R140). -/
structure State.Copied (s : State) (k : Nat) (m : Mem) : Prop where
  wf : m.wf = true
  copied : ∀ j < k,
    m.read (s.outLen + j) = s.outMem.read (s.outLen - s.dist.toNat + j % s.dist.toNat)
  kept : ∀ a < s.outLen, m.read a = s.outMem.read a

section
variable {s : State} {k : Nat} {m : Mem}

/-- The source of the next byte: below the old `out_len` at first, and then a byte the copy itself
has written, `dist` before it. -/
theorem State.Copied.source (h : s.Copied k m) (hpos : 1 ≤ s.dist.toNat)
    (hle : s.dist.toNat ≤ s.outLen) :
    m.read (s.outLen + k - s.dist.toNat) =
      s.outMem.read (s.outLen - s.dist.toNat + k % s.dist.toNat) := by
  by_cases hk : k < s.dist.toNat
  · rw [Nat.mod_eq_of_lt hk, Nat.sub_add_comm hle]
    exact h.kept _ (by omega)
  · rw [Nat.add_sub_assoc (by omega), Nat.mod_eq_sub_mod (by omega)]
    exact h.copied _ (by omega)

/-- One byte more keeps the closed form. -/
theorem State.Copied.succ (h : s.Copied k m) (hpos : 1 ≤ s.dist.toNat)
    (hle : s.dist.toNat ≤ s.outLen) : s.Copied (k + 1) (s.afterCopied k m).copyMem where
  wf := Mem.write_wf _ _ h.wf
  copied j hj := by
    rw [State.copyMem_read h.wf]
    obtain hlt | rfl := Nat.lt_succ_iff_lt_or_eq.1 hj
    · exact (if_neg (show s.outLen + j ≠ s.outLen + k by omega)).trans (h.copied j hlt)
    · exact (if_pos rfl).trans (h.source hpos hle)
  kept a ha := by
    rw [State.copyMem_read h.wf]
    exact (if_neg (show a ≠ s.outLen + k by omega)).trans (h.kept a ha)

/-- One step of the copy, seen from where the copy began. -/
theorem step_afterCopied (m : Mem) (hst : s.state = .copy) (hh : s.host = [])
    (hpos : 1 ≤ s.dist.toNat) (hle : s.dist.toNat ≤ s.outLen) (hk : k < s.copyRem.toNat)
    (hroom : s.outLen + k < s.par.outCap) :
    step (s.afterCopied k m) =
      .next (s.afterCopied (k + 1) (s.afterCopied k m).copyMem) := by
  have hrem : s.copyRem - BitVec.ofNat 9 k ≠ 0#9 := by bv_omega
  have hnext : s.copyRem - BitVec.ofNat 9 k - 1#9 = s.copyRem - BitVec.ofNat 9 (k + 1) := by
    rw [BitVec.ofNat_add]
    ring
  rw [step_copyByte (s := s.afterCopied k m) hst hh hrem hpos (Nat.le_add_right_of_le hle)
    (Nat.ne_of_lt hroom)]
  exact congrArg (fun c => Host.Outcome.next { s with
    outLen := s.outLen + (k + 1), copyRem := c, outMem := (s.afterCopied k m).copyMem }) hnext

/-- `k` steps of the copy give the closed form of `k` bytes. -/
theorem run_copied (hst : s.state = .copy) (hh : s.host = []) (hwf : s.outMem.wf = true)
    (hpos : 1 ≤ s.dist.toNat) (hle : s.dist.toNat ≤ s.outLen)
    (hroom : s.outLen + s.copyRem.toNat ≤ s.par.outCap) : ∀ k ≤ s.copyRem.toNat,
    ∃ m, core.run k s = .next (s.afterCopied k m) ∧ s.Copied k m
  | 0, _ => ⟨s.outMem, by simp [Host.Core.run, State.afterCopied], hwf, nofun, fun _ _ => rfl⟩
  | k + 1, hk => by
    obtain ⟨m, hrun, hm⟩ := run_copied hst hh hwf hpos hle hroom k (by omega)
    exact ⟨_, run_step (step_afterCopied m hst hh hpos hle hk (by omega)) hrun,
      hm.succ hpos hle⟩

end

/-- Settles O37: the closed form after every byte that was left. -/
theorem copyClosedForm : Obligations.CopyClosedForm := by
  intro s hst hh hwf hpos hle hroom
  obtain ⟨m, hrun, hm⟩ := run_copied hst hh hwf hpos hle hroom _ le_rfl
  refine ⟨_, hrun, ?_, hm.copied, hm.kept⟩
  rw [State.afterCopied, BitVec.ofNat_toNat, BitVec.setWidth_eq, BitVec.sub_self]

end Sys2Proof.Machine
end

section
/-! SUPPORT. Every call ends (70_reset_and_hazards.md R192): each step of a running call takes a fault,
finishes the final block, or comes closer to the end. What R192 counts in bits of the input is counted
here in blocks below BLOCK_CAP, in the phases of a block, and in the registers that count a phase's own
loop: `st_rem`, `idx`, and the room left in the output. -/

namespace Sys2Proof.Machine

/-- The phases of a block, the last one lowest; the item loop is one phase, and 0 is no call. -/
def BlockState.phase : BlockState → Nat
  | .zhdr => 9
  | .blkHdr => 8
  | .stHdr | .fxSetup | .dyCounts => 7
  | .stCopy | .dyClen => 6
  | .dyCltree => 5
  | .dyLens => 4
  | .dyTrees => 3
  | .sym | .lenX | .distSym | .distX | .copy => 2
  | .blkEnd => 1
  | .idle | .done | .error => 0

/-- How many elements of a row with three are still to come after the next. -/
def Part.after : Part → Nat
  | .first => 2
  | .second => 1
  | .third => 0

/-- The bytes that still fit in the output. -/
def State.room (s : State) : Nat := s.par.outCap - s.outLen

/-- What is left of the phase that `st` belongs to. Between two bytes appended the item loop passes at
most through the end of a copy, SYM, LEN_X, DIST_SYM and DIST_X to a copy with bytes left, in this
order; so each byte of room counts six. -/
def State.workAt (s : State) : BlockState → Nat
  | .zhdr | .stHdr | .dyCounts => s.part.after
  | .stCopy => s.stRem.toNat
  | .dyLens => s.total.toNat - s.idx.toNat
  | .sym => 6 * s.room + 4
  | .lenX => 6 * s.room + 3
  | .distSym => 6 * s.room + 2
  | .distX => 6 * s.room + 1
  | .copy => 6 * s.room + if s.copyRem = 0#9 then 5 else 0
  | _ => 0

/-- The phases still to come, those of the blocks below the cap included. -/
def State.phasesLeft (s : State) : Nat := 10 * (s.par.blockCap - s.blocks) + s.state.phase

/-- `t` is closer to the end of the call than `s`: by its phase, or by its work in the same phase. -/
def State.Closer (s t : State) : Prop :=
  t.phasesLeft < s.phasesLeft ∨
    t.phasesLeft = s.phasesLeft ∧ t.workAt t.state < s.workAt s.state

/-- What a step of a running call comes to. -/
inductive Advance (s t : State) : Prop
  | fault (h : t.state = .error)
  | finish (hst : s.state = .blkEnd) (hf : s.bfinal = true) (hdone : t.state = .done)
      (hlen : t.outLen = s.outLen) (herr : t.err = s.err) (hmem : t.outMem = s.outMem)
  | onward (hb : t.busy = true) (hc : s.Sound → s.Closer t)

theorem State.busy_iff_phase {s : State} : s.busy = true ↔ 0 < s.state.phase := by
  unfold State.busy State.run
  cases s.state <;> decide

namespace Advance

variable {s t : State}

/-- Into a later phase of the same block. -/
theorem nextPhase (st' : BlockState) {st : BlockState} (hst : s.state = st)
    (hst' : t.state = st' := by rfl) (hpar : t.par = s.par := by rfl)
    (hblocks : t.blocks = s.blocks := by rfl)
    (hphase : 0 < st'.phase ∧ st'.phase < st.phase := by decide) : Advance s t := by
  subst hst hst'
  refine .onward (State.busy_iff_phase.2 hphase.1) fun _ => .inl ?_
  rw [State.phasesLeft, State.phasesLeft, hpar, hblocks]
  exact Nat.add_lt_add_left hphase.2 _

/-- In the same phase, with less work left. -/
theorem lessWork (st' : BlockState) {st : BlockState} (hst : s.state = st)
    (hwork : s.Sound → t.workAt st' < s.workAt st) (hst' : t.state = st' := by rfl)
    (hpar : t.par = s.par := by rfl) (hblocks : t.blocks = s.blocks := by rfl)
    (hphase : 0 < st'.phase ∧ st'.phase = st.phase := by decide) : Advance s t := by
  subst hst hst'
  refine .onward (State.busy_iff_phase.2 hphase.1) fun h => .inr ⟨?_, hwork h⟩
  rw [State.phasesLeft, State.phasesLeft, hpar, hblocks, hphase.2]

/-- In the same state, with less work left. -/
theorem sameState {st : BlockState} (hst : s.state = st)
    (hwork : s.Sound → t.workAt st < s.workAt st) (hst' : t.state = s.state := by rfl)
    (hpar : t.par = s.par := by rfl) (hblocks : t.blocks = s.blocks := by rfl)
    (hphase : 0 < st.phase := by decide) : Advance s t :=
  lessWork st hst hwork (hst'.trans hst) hpar hblocks ⟨hphase, rfl⟩

/-- At a later element of the same row. -/
theorem nextPart (q : Part) {st : BlockState} {p : Part} (hst : s.state = st) (hp : s.part = p)
    (hwork : ∀ u : State, u.workAt st = u.part.after := by exact fun _ => rfl)
    (hq : t.part = q := by rfl) (hlt : q.after < p.after := by decide)
    (hst' : t.state = s.state := by rfl) (hpar : t.par = s.par := by rfl)
    (hblocks : t.blocks = s.blocks := by rfl) (hphase : 0 < st.phase := by decide) :
    Advance s t := by
  refine sameState hst (fun _ => ?_) hst' hpar hblocks hphase
  rw [hwork, hwork, hp, hq]
  exact hlt

/-- What comes before the step in reading the stream counts for nothing. -/
theorem of_readOn {s' : State} (hr : s.ReadOn s') (h : Advance s' t) : Advance s t := by
  cases h with
  | fault h => exact .fault h
  | finish hst hf hdone hlen herr hmem =>
    obtain ⟨⟨r, -, rfl⟩, -⟩ := hr
    exact .finish hst hf hdone hlen herr hmem
  | onward hb hc =>
    refine .onward hb fun hs => ?_
    have hcloser := hc (hs.of_readOn hr)
    obtain ⟨⟨r, -, rfl⟩, -⟩ := hr
    exact hcloser

end Advance

section
variable {s t : State}

/-- A byte appended takes its room. -/
theorem State.Sound.room_append (h : s.Sound) (hfull : s.outLen ≠ s.par.outCap) :
    s.par.outCap - (s.outLen + 1) + 1 = s.room := by
  have := h.out
  rw [State.room]
  omega

/-- A repeat of at least one bit length passes `total` or moves `idx` on. -/
theorem State.repeatLen_advance (hst : s.state = .dyLens) (hi : s.idx.toNat < s.total.toNat)
    (v : BitVec 4) {n : BitVec 8} (hn : 3 ≤ n.toNat) : Advance s (s.repeatLen v n) := by
  obtain ⟨-, e⟩ | ⟨hle, e⟩ := s.repeatLen_cases v n <;> rw [e]
  · exact .fault rfl
  · refine .sameState hst fun _ => ?_
    have := s.total.isLt
    change s.total.toNat - (BitVec.ofNat 9 (s.idx.toNat + n.toNat)).toNat < _
    rw [BitVec.toNat_ofNat, Nat.mod_eq_of_lt (by omega)]
    exact Nat.sub_lt_sub_left hi (by omega)

/-- Every element advances the call. -/
theorem exec_advance {i : Instr} (hb : s.busy = true) (hr : Reads s i) (h : exec i s = .next t) :
    Advance s t := by
  cases hr with
  | zhdr hst hp =>
    cases h
    split
    · exact .fault rfl
    · exact .nextPart _ hst hp (hlt := by dsimp only; split <;> decide)
  | dictid hst hp =>
    cases h
    split
    · exact .fault rfl
    · exact .nextPart .third hst hp
  | adler hst =>
    cases h
    split
    · exact .fault rfl
    · exact .nextPhase .blkHdr hst
  | blockStored hst => cases h; exact .nextPhase .stHdr hst
  | blockFixed hst => cases h; exact .nextPhase .fxSetup hst
  | blockDynamic hst => cases h; exact .nextPhase .dyCounts hst
  | blockReserved => cases h; exact .fault rfl
  | pad hst hp => cases h; exact .nextPart .second hst hp
  | len16 hst hp => cases h; exact .nextPart .third hst hp
  | nlen16 hst =>
    cases h
    dsimp only
    split
    · exact .fault rfl
    · exact .nextPhase .stCopy hst
  | @byte x hst hrem =>
    cases h
    obtain ⟨-, e⟩ | ⟨-, e⟩ := s.outAppend_cases x fun s => { s with stRem := s.stRem - 1#16 } <;>
      rw [e]
    · exact .fault rfl
    · refine .sameState hst fun _ => ?_
      change (s.stRem - 1#16).toNat < s.stRem.toNat
      bv_omega
  | hlit hst hp => cases h; exact .nextPart .second hst hp
  | hdist hst hp => cases h; exact .nextPart .third hst hp
  | hclen hst => cases h; exact .nextPhase .dyClen hst
  | cllen hst => cases h; exact .nextPhase .dyCltree hst
  | cl hst hi =>
    cases h
    refine .sameState hst fun _ => ?_
    change s.total.toNat - (s.idx + 1#9).toNat < s.total.toNat - s.idx.toNat
    bv_omega
  | cl16 hst hi =>
    cases h
    split
    · exact .fault rfl
    · exact s.repeatLen_advance hst hi _ ((Laws.operandRange (.cl16 _)).2.2 _ rfl).1
  | cl17 hst hi =>
    cases h; exact s.repeatLen_advance hst hi _ ((Laws.operandRange (.cl17 _)).2.2 _ rfl).1
  | cl18 hst hi =>
    cases h; exact s.repeatLen_advance hst hi _ ((Laws.operandRange (.cl18 _)).2.2 _ rfl).1
  | @lit x ha =>
    cases h
    obtain ⟨-, e⟩ | ⟨hfull, e⟩ := State.outAppend_cases { s with sym := x.setWidth 9 } x id <;>
      rw [e]
    · exact .fault rfl
    · refine .sameState rfl (fun h => ?_) (hphase := State.busy_iff_phase.1 hb)
      have hroom := h.room_append hfull
      rw [h.atSymbol ha]
      change 6 * (s.par.outCap - (s.outLen + 1)) + 4 < 6 * s.room + 4
      omega
  | eob ha =>
    cases h
    obtain hst | ⟨hst, -⟩ := ha <;> exact .nextPhase .blkEnd hst
  | llsym286 => cases h; exact .fault rfl
  | llsym287 => cases h; exact .fault rfl
  | dsym30 => cases h; exact .fault rfl
  | dsym31 => cases h; exact .fault rfl
  | length hst hp =>
    cases (exec_of_lengthParts hp s).symm.trans h
    exact .lessWork .distSym hst fun _ => Nat.lt_succ_self _
  | @dist _ y hst hp =>
    cases (exec_of_distParts hp s).symm.trans h
    obtain ⟨-, e⟩ | ⟨-, e⟩ := s.takeDist_cases s.dsym.toNat y <;> rw [e]
    · exact .fault rfl
    · refine .lessWork .copy hst fun h => ?_
      obtain ⟨⟨-, hlength, -⟩, -⟩ := h.stage_of hst
      have hne : s.length ≠ 0#9 := fun h0 => by simp [h0] at hlength
      change 6 * s.room + (if s.length = 0#9 then 5 else 0) < 6 * s.room + 1
      rw [if_neg hne]
      exact Nat.lt_succ_self _

/-- Every row and every fault advances it too. -/
theorem Act.advance (hb : s.busy = true) (a : Act s t) : Advance s t := by
  cases a with
  | elem hr h => exact exec_advance hb hr h
  | raised => exact .fault rfl
  | rest hn => rw [hb] at hn; cases hn
  | storedEnd hst => exact .nextPhase .blkEnd hst
  | fixedSetup hst => exact .nextPhase .sym hst
  | clTree hst => exact .nextPhase .dyLens hst
  | lensEnd hst => exact .nextPhase .dyTrees hst
  | trees hst => exact .nextPhase .sym hst
  | lengthSymbol hst => exact .lessWork .lenX hst fun _ => Nat.lt_succ_self _
  | distSymbol hst => exact .lessWork .distX hst fun _ => Nat.lt_succ_self _
  | copy hst h =>
    obtain ⟨h0, rfl⟩ | ⟨hne, -, -, rfl⟩ := rowCopy_cases h
    · refine .lessWork .sym hst fun _ => ?_
      change 6 * s.room + 4 < 6 * s.room + if s.copyRem = 0#9 then 5 else 0
      rw [if_pos h0]
      exact Nat.lt_succ_self _
    · obtain ⟨-, e⟩ | ⟨hfull, e⟩ := s.outAppend_cases (s.outMem.read (s.outLen - s.dist.toNat))
        fun s => { s with copyRem := s.copyRem - 1#9 } <;> rw [e]
      · exact .fault rfl
      · refine .sameState hst fun h => ?_
        have hroom := h.room_append hfull
        change 6 * (s.par.outCap - (s.outLen + 1)) + (if s.copyRem - 1#9 = 0#9 then 5 else 0) <
          6 * s.room + (if s.copyRem = 0#9 then 5 else 0)
        rw [if_neg hne]
        split <;> omega
  | blockEnd hst =>
    cases hf : s.bfinal with
    | true => exact .finish hst hf (by simp [rowBlockEnd, hf]) rfl rfl rfl
    | false =>
      have hst' : (rowBlockEnd s).state = .blkHdr := by simp [rowBlockEnd, hf]
      refine .onward (State.busy_iff_phase.2 (hst' ▸ by decide)) fun h => .inl ?_
      obtain ⟨-, hlt⟩ := h.stage_of hst
      rw [State.phasesLeft, State.phasesLeft, hst, hst']
      change 10 * (s.par.blockCap - (s.blocks + 1)) + 8 < 10 * (s.par.blockCap - s.blocks) + 1
      omega

theorem fetchBlock_advance (hb : s.busy = true) (h : (fetchBlock s).outcome = .next t) :
    Advance s t := by
  obtain ⟨s', hr, a⟩ := fetchBlock_next h
  have hb' : s'.busy = true := by
    obtain ⟨⟨r, -, rfl⟩, -⟩ := hr
    exact hb
  exact (a.advance hb').of_readOn hr

end

/-- A call is in step with itself. -/
theorem State.SameCall.refl (s : State) : s.SameCall s :=
  ⟨rfl, rfl, rfl, rfl, rfl, rfl, rfl, fun _ _ => rfl, fun _ _ => rfl, fun _ => ⟨rfl, rfl, rfl⟩, by
    unfold State.LiveAt; split <;> simp [State.SameCounts, State.SameTrees]⟩

/-- No step of the block stops the model. -/
theorem fetchBlock_never_stops {s : State} (h : s.Sound) :
    ∃ t, (fetchBlock s).outcome = .next t := by
  obtain ⟨t, -, ht, -⟩ := (fetchBlock_sameNext (.refl s) h h).exists
  exact ⟨t, ht⟩

/-- A running call goes on to its end, each step coming closer to it. -/
theorem exists_run_doneO {s : State} (hs : s.Sound) (hb : s.busy = true) (hh : s.host = []) :
    ∃ k t, core.run k s = .next t ∧ t.doneO = true := by
  obtain ⟨t, ht⟩ := fetchBlock_never_stops hs
  have hstep := (step_of_host_nil hh).trans ht
  by_cases hend : t.doneO = true
  · exact ⟨1, t, run_one hstep, hend⟩
  · have hcloser : t.busy = true ∧ s.Closer t := by
      cases fetchBlock_advance hb ht with
      | fault h => exact absurd (State.doneO_iff.2 (.inr h)) hend
      | finish _ _ hdone => exact absurd (State.doneO_iff.2 (.inl hdone)) hend
      | onward hb' hc => exact ⟨hb', hc hs⟩
    obtain ⟨hb', hc⟩ := hcloser
    obtain ⟨k, u, hrun, hu⟩ :=
      exists_run_doneO (fetchBlock_sound hs ht) hb' ((fetchBlock_frame ht).host.trans hh)
    exact ⟨k + 1, u, (run_succ hstep k).trans hrun, hu⟩
termination_by (s.phasesLeft, s.workAt s.state)
decreasing_by exact Prod.lex_def.2 hc

/-- Settles O59: by induction on what is left of the call. -/
theorem everyCallEnds : Obligations.EveryCallEnds :=
  fun _ h hb hh => exists_run_doneO h.sound hb hh

end Sys2Proof.Machine
end

section
/-! SUPPORT. How an access of the host changes the state of the block, and that DONE is entered at the
end of the final block alone (44_stream_and_wrapper.md R152). -/

namespace Sys2Proof.Machine

/-- START is ignored, or it begins a call. -/
theorem execStart_state {m : Mode} {s t : State} (h : exec (.start m) s = .next t) :
    t.state = s.state ∨ t.busy = true := by
  by_cases hb : s.busy = true
  · cases (if_pos hb).symm.trans h
    exact .inl rfl
  by_cases hc : s.par.inCap < s.inLen
  · cases ((if_neg hb).trans (if_pos hc)).symm.trans h
  · cases ((if_neg hb).trans (if_neg hc)).symm.trans h
    cases m <;> exact .inr rfl

/-- An access of the host leaves the state of the block, but for a START that begins a call, a reset,
and `run`, which leaves the step to the block. -/
theorem fetchHost_state {op : HostOp} {s t : State} (h : (fetchHost op s).outcome = .next t) :
    t.state = s.state ∨
      (∃ v : BitVec 32, op = .writeCtrl v ∧ v.getLsbD 0 = true) ∧ t.busy = true ∨
      op = .assertReset ∧ t.state = .idle ∨ op = .run ∧ (fetchBlock s).outcome = .next t := by
  cases op with
  | run => exact .inr (.inr (.inr ⟨rfl, h⟩))
  | assertReset => cases h; exact .inr (.inr (.inl ⟨rfl, rfl⟩))
  | writeCtrl v =>
    cases hd : decodeCtrl v with
    | none => rw [fetchHost_mode s hd] at h; cases h; exact .inl rfl
    | some i =>
      obtain ⟨hv, m, rfl⟩ := decodeCtrl_some hd
      rw [fetchHost_start s hd] at h
      exact (execStart_state h).imp_right fun hb => .inl ⟨⟨v, rfl, hv⟩, hb⟩
  | writeInLen n =>
    rw [fetchHost, Fetch.outcome, hostWriteInLen] at h
    split_ifs at h
    cases h
    exact .inl rfl
  | writeIn a v =>
    rw [fetchHost, Fetch.outcome, hostWriteIn] at h
    split_ifs at h
    cases h
    exact .inl rfl
  | writeOut a v =>
    rw [fetchHost, Fetch.outcome, hostWriteOut] at h
    split_ifs at h
    cases h
    exact .inl rfl
  | readReg r =>
    cases h
    cases r with
    | ctrl | inLen | status => exact .inl rfl
    | err | outLen => dsimp only; split <;> exact .inl rfl
  | readOut a =>
    rw [fetchHost, Fetch.outcome, hostReadOut] at h
    split_ifs at h <;> cases h <;> exact .inl rfl

section
variable {s t : State} (hdone : t.state = .done) (hne : s.state ≠ .done)
include hdone hne

/-- The block enters DONE from BLK_END with `bfinal = 1`, and keeps the output and ERR. -/
theorem fetchBlock_done (h : (fetchBlock s).outcome = .next t) :
    s.state = .blkEnd ∧ s.bfinal = true ∧ t.outLen = s.outLen ∧ t.err = s.err ∧
      t.outMem = s.outMem := by
  cases hb : s.busy with
  | false =>
    rw [fetchBlock_of_not_busy hb] at h
    cases h
    exact absurd hdone hne
  | true =>
    cases fetchBlock_advance hb h with
    | fault herror => cases herror.symm.trans hdone
    | finish hst hf _ hlen herr hmem => exact ⟨hst, hf, hlen, herr, hmem⟩
    | onward hb' => rw [State.busy, State.run, hdone] at hb'; cases hb'

/-- No access of the host enters DONE. -/
theorem fetchHost_done {op : HostOp} (h : (fetchHost op s).outcome = .next t) :
    (fetchBlock s).outcome = .next t := by
  obtain hst | ⟨-, hb⟩ | ⟨-, hidle⟩ | ⟨-, h⟩ := fetchHost_state h
  · exact absurd (hst.symm.trans hdone) hne
  · rw [State.busy, State.run, hdone] at hb; cases hb
  · cases hidle.symm.trans hdone
  · exact h

end

/-- Settles O51: no access of the host enters DONE, and of the block's steps only the last one of a
call does. -/
theorem doneOnlyAfterFinalBlock : Obligations.DoneOnlyAfterFinalBlock := by
  intro s t h hdone hne
  cases hh : s.host with
  | nil => exact fetchBlock_done hdone hne ((step_of_host_nil hh).symm.trans h)
  | cons op ops =>
    exact fetchBlock_done (s := { s with host := ops }) hdone hne
      (fetchHost_done hdone hne ((step_of_host_cons hh).symm.trans h))

end Sys2Proof.Machine
end

section
/-! SUPPORT. The elements of the envelope where it fits (44_stream_and_wrapper.md R150), and START of a
block that is not BUSY (44_stream_and_wrapper.md R147). -/

namespace Sys2Proof.Machine

/-- Settles O31: each element of the envelope tests its length once, and it fits. -/
theorem envelopeElements : Obligations.EnvelopeElements := fun _ _ _ =>
  ⟨fun h => congrArg Host.Outcome.next (if_neg (Nat.not_lt_of_le h)),
    fun h => congrArg Host.Outcome.next (if_neg (Nat.not_lt_of_le h)),
    fun h => congrArg Host.Outcome.next (if_neg (Nat.not_lt_of_le h))⟩

/-- Settles O40: START passes its two tests, and `State.begin` in its mode is the update. -/
theorem startBeginsCall : Obligations.StartBeginsCall := fun s hb hcap =>
  ⟨begin_eq_start (s := { s with mode := .raw }) hb hcap,
    begin_eq_start (s := { s with mode := .zlib }) hb hcap⟩

end Sys2Proof.Machine
end

section
/-! SUPPORT. Where ERROR is entered and left (60_exceptions.md R163, R176). -/

namespace Sys2Proof.Machine

/-- A block that is not BUSY rests, but for a START that begins a call and for a reset. -/
theorem step_of_not_busy {s t : State} (hb : s.busy = false) (h : step s = .next t) :
    t.state = s.state ∨
      (∃ ops, ∃ v : BitVec 32, s.host = .writeCtrl v :: ops ∧ v.getLsbD 0 = true) ∧
        t.busy = true ∨
      (∃ ops, s.host = .assertReset :: ops) ∧ t.state = .idle := by
  have hrest : ∀ {u : State}, u.busy = false → (fetchBlock u).outcome = .next t →
      t.state = u.state := fun hu h => by
    rw [fetchBlock_of_not_busy hu] at h
    cases h
    rfl
  cases hh : s.host with
  | nil => exact .inl (hrest hb ((step_of_host_nil hh).symm.trans h))
  | cons op ops =>
    obtain hst | ⟨⟨v, rfl, hv⟩, hbusy⟩ | ⟨rfl, hidle⟩ | ⟨-, hrun⟩ :=
      fetchHost_state ((step_of_host_cons hh).symm.trans h)
    · exact .inl hst
    · exact .inr (.inl ⟨⟨ops, v, rfl, hv⟩, hbusy⟩)
    · exact .inr (.inr ⟨⟨ops, rfl⟩, hidle⟩)
    · exact .inl (hrest (u := { s with host := ops }) hb hrun)

/-- ERROR is entered by a step of a running call alone: neither START nor reset comes to it. -/
theorem busy_of_step_error {s t : State} (h : step s = .next t) (ht : t.state = .error)
    (hs : s.state ≠ .error) : s.busy = true := by
  by_contra hb
  obtain hst | ⟨-, hbusy⟩ | ⟨-, hidle⟩ := step_of_not_busy (Bool.eq_false_of_not_eq_true hb) h
  · exact hs (hst.symm.trans ht)
  · rw [State.busy, State.run, ht] at hbusy; cases hbusy
  · cases hidle.symm.trans ht

/-- Settles O50: the writes and the codes are those of the definitions, and a block that is not BUSY
changes its state by START or reset alone. -/
theorem faultEntryAndExit : Obligations.FaultEntryAndExit := by
  refine ⟨fun _ _ => rfl, rfl, fun _ _ => busy_of_step_error, fun s t h hs ht => ?_⟩
  obtain hst | ⟨⟨ops, v, hstart⟩, -⟩ | ⟨⟨ops, hreset⟩, -⟩ :=
    step_of_not_busy (State.not_busy_iff.2 (.inr (.inr hs))) h
  · exact absurd (hst.trans hs) ht
  · exact ⟨ops, .inr ⟨v, hstart⟩⟩
  · exact ⟨ops, .inl hreset⟩

end Sys2Proof.Machine
end

section
/-! SUPPORT. RESET in any state (70_reset_and_hazards.md R185). -/

namespace Sys2Proof.Machine

/-- Settles O43: RESET goes to `State.toReset`, which takes every register from `State.reset` and only
arrays, memories, parameters and the host's fields from the state before. -/
theorem resetFromAnyState : Obligations.ResetFromAnyState := by
  intro s
  refine ⟨s.toReset, rfl, ?_⟩
  and_intros <;> rfl

end Sys2Proof.Machine
end
